-- ==== Sys2Proof/Word.lean ====
section
/-! DEFINITION. The words of the part: the 32-bit bus word and the 8-bit component. -/

namespace Sys2Proof

/-- A word of the host bus or of the index lookup path (00 section 0.2). -/
abbrev Word := BitVec 32

/-- A component (R1) or an index (R3): a number from 0 to 255. -/
abbrev Byte := BitVec 8

end Sys2Proof
end

