-- ==== Sys2Proof/Syntax.lean ====
section
/-! DEFINITION. The commands of the part: one constructor of `Instr` for each row of
spec/opcode_table.json, with the row's operands, and the names (banks, maps, channels, registers) the
operands are made of. -/

namespace Sys2Proof

/-- The four palette banks (chapter 2). -/
inductive BankId where
  | b0 | b1 | b2 | b3
deriving DecidableEq, Repr

/-- The two reduction maps (chapter 5). -/
inductive MapId where
  | m0 | m1
deriving DecidableEq, Repr

/-- The three conversion channels (chapter 7). -/
inductive Chan where
  | ch0 | ch1 | ch2
deriving DecidableEq, Repr

/-- The six context registers of a channel (R111). -/
inductive CtxReg where
  | fmt | keyLo | keyHi | edge | lanes | seg
deriving DecidableEq, Repr

/-- The registers of the window (Tables 11-1 and 11-3). -/
inductive Reg where
  | engCtrl | engStatus | hostFaults | tickDiv
  | eqHead0 | eqHead1 | eqNext | eqPop | eqCtrl | eqStatus
  | stgHdr | stgData | stgCmd | stgStatus
  | apAddr | apData | apStatus
  | bankStatus (b : BankId)
  | scnCtrl | scnStatus
  | bldReq0 | bldReq1 | bldCmd | bldStatus
  | mapStatus (m : MapId)
  | ctx (c : Chan) (r : CtxReg)
  | jobCount (c : Chan) | jobWidth (c : Chan) | jobPush (c : Chan) | chCmd (c : Chan)
  | chStatus (c : Chan) | chProgress (c : Chan) | chIn (c : Chan) | chOut (c : Chan)
deriving DecidableEq, Repr

/-- The writable registers whose write has no row of its own in the table: REGISTER_WRITE stands for
them (R93, R113, R177). -/
inductive PlainReg where
  | bldReq0 | bldReq1
  | jobCount (c : Chan) | jobWidth (c : Chan)
deriving DecidableEq, Repr

/-- The three interrupt enables that every ENG_CTRL write sets (R179). -/
structure IrqEnables where
  urg : Bool
  rtn : Bool
  flt : Bool
deriving DecidableEq, Repr

/-- The commands, one constructor for each row of the table, in the table's order. A register write
carries the written word, whose fields Chapter 11 lays out; a command register's rows carry the fields
of the write that the row's command reads; the four rows of ENG_CTRL carry the fields of the one write
(R179) that the row does not fix. -/
inductive Instr where
  /-- Power-up or the RESET input (R181). -/
  | fullReset
  /-- The FRAME_START strobe (R158). -/
  | frameStart
  /-- The display controller presents an index (R160). -/
  | lookup (index : Byte)
  /-- The timebase completes a count of TICK_DIV cycles (R182). -/
  | tick
  /-- A tick that brings the channel's stall timer to its limit (R126). -/
  | stalled (c : Chan)
  /-- A tick that brings the coalescing timer to its timeout (R173). -/
  | overdue
  /-- An access that R176 calls invalid; `width` in bits, `offset` in bytes. -/
  | invalidAccess (write : Bool) (width offset : Nat)
  /-- A read of a W register or a write to an R register (R177). -/
  | wrongTypeAccess (write : Bool) (r : Reg)
  /-- A write to a register without a row of its own (R177). -/
  | registerWrite (r : PlainReg) (v : Word)
  /-- An ENG_CTRL write with the soft-reset field 1 (R179, R180). -/
  | softReset (scanoutEnable : Bool) (en : IrqEnables)
  /-- An ENG_CTRL write with the scanout enable 1 (R156, R179). -/
  | scanoutEnable (softReset : Bool) (en : IrqEnables)
  /-- An ENG_CTRL write with the scanout enable 0 (R156, R179). -/
  | scanoutDisable (softReset : Bool) (en : IrqEnables)
  /-- An ENG_CTRL write, named for the enables it sets (R171, R179). -/
  | interruptEnables (softReset scanoutEnable : Bool) (en : IrqEnables)
  | hostFaults (v : Word)
  | tickDiv (v : Word)
  | eqHead0
  | eqHead1
  | eqNext
  /-- The written value is not used (R167). -/
  | eqPop (v : Word)
  | eqCtrl (v : Word)
  | insertionEvent
  | stgHdr (v : Word)
  | stgData (v : Word)
  | stgCmdSeal (b : BankId) (notify : Bool)
  | stgCmdDiscard (b : BankId)
  | stgCmdIgnored (code : BitVec 2)
  | apAddr (v : Word)
  | apDataRead
  | apDataWrite (v : Word)
  | fetchCompletion
  | scnCtrl (v : Word)
  | bldCmdRequest
  | bldCmdAbort (m : MapId)
  | bldCmdIgnored (code : BitVec 2)
  | buildStart
  | cellCompletion
  | ctxWrite (c : Chan) (r : CtxReg) (v : Word)
  | jobPush (c : Chan) (v : Word)
  | segmentStartAttempt (c : Chan)
  | pixelStep (c : Chan)
  | chIn (c : Chan) (v : Word)
  | chOut (c : Chan)
  | chCmdAbort (c : Chan)
  | chCmdResume (c : Chan)
  | chCmdReset (c : Chan)
  | chCmdIgnored (c : Chan) (code : BitVec 2)
deriving DecidableEq, Repr

end Sys2Proof
end

