-- ==== Sys2Proof/Decode.lean ====
section
/-! DEFINITION. The register window's decoder (R176, R177): which register an offset names (Tables
11-1 and 11-3), which accesses a register takes, and which command of the table a bus access is; with
the access that spells a command. The table gives no row bits of its own, so `decodeTableWord` reads
no command from a word. The bit-field helpers of the whole model stand here. -/

namespace Sys2Proof

/-- The field of `w` bits of a bus word that starts at bit `lo`. -/
def fieldAt (v : Word) (lo w : Nat) : BitVec w := v.extractLsb' lo w

/-- The one-bit field at bit `i` of a bus word, as a flag. -/
def bitAt (v : Word) (i : Nat) : Bool := v.getLsbD i

/-- A field put at bit `lo` of a bus word whose other bits are 0. -/
def putAt {w : Nat} (x : BitVec w) (lo : Nat) : Word := x.setWidth 32 <<< lo

/-- A flag put at bit `i` of a bus word whose other bits are 0. -/
def putBit (x : Bool) (i : Nat) : Word := putAt (BitVec.ofBool x) i

/-- A number put at bit `lo` of a bus word, in a field of `w` bits. -/
def putNat (w n lo : Nat) : Word := putAt (BitVec.ofNat w n) lo

/-- The bank's number in a 2-bit field. -/
def BankId.code : BankId → BitVec 2
  | .b0 => 0 | .b1 => 1 | .b2 => 2 | .b3 => 3

/-- The bank a 2-bit field names: no value is out of range (R47). -/
def BankId.ofCode (x : BitVec 2) : BankId :=
  if x = 0 then .b0 else if x = 1 then .b1 else if x = 2 then .b2 else .b3

/-- The map's number in a 1-bit field. -/
def MapId.code : MapId → BitVec 1
  | .m0 => 0 | .m1 => 1

/-- The map a 1-bit field names. -/
def MapId.ofFlag (x : Bool) : MapId := if x then .m1 else .m0

/-- The channel's number. -/
def Chan.code : Chan → BitVec 2
  | .ch0 => 0 | .ch1 => 1 | .ch2 => 2

/-- The register at an offset within a channel block (Table 11-3). -/
def chanRegAt (c : Chan) (rel : Nat) : Option Reg :=
  match rel with
  | 0x00 => some (.ctx c .fmt)
  | 0x04 => some (.ctx c .keyLo)
  | 0x08 => some (.ctx c .keyHi)
  | 0x0C => some (.ctx c .edge)
  | 0x10 => some (.ctx c .lanes)
  | 0x14 => some (.ctx c .seg)
  | 0x18 => some (.jobCount c)
  | 0x1C => some (.jobWidth c)
  | 0x20 => some (.jobPush c)
  | 0x24 => some (.chCmd c)
  | 0x28 => some (.chStatus c)
  | 0x2C => some (.chProgress c)
  | 0x30 => some (.chIn c)
  | 0x34 => some (.chOut c)
  | _ => none

/-- The register at an offset of the common part of the window (Table 11-1). -/
def commonRegAt (offset : Nat) : Option Reg :=
  match offset with
  | 0x000 => some .engCtrl
  | 0x004 => some .engStatus
  | 0x008 => some .hostFaults
  | 0x00C => some .tickDiv
  | 0x010 => some .eqHead0
  | 0x014 => some .eqHead1
  | 0x018 => some .eqNext
  | 0x01C => some .eqPop
  | 0x020 => some .eqCtrl
  | 0x024 => some .eqStatus
  | 0x040 => some .stgHdr
  | 0x044 => some .stgData
  | 0x048 => some .stgCmd
  | 0x04C => some .stgStatus
  | 0x060 => some .apAddr
  | 0x064 => some .apData
  | 0x068 => some .apStatus
  | 0x080 => some (.bankStatus .b0)
  | 0x084 => some (.bankStatus .b1)
  | 0x088 => some (.bankStatus .b2)
  | 0x08C => some (.bankStatus .b3)
  | 0x0A0 => some .scnCtrl
  | 0x0A4 => some .scnStatus
  | 0x0C0 => some .bldReq0
  | 0x0C4 => some .bldReq1
  | 0x0C8 => some .bldCmd
  | 0x0CC => some .bldStatus
  | 0x0D0 => some (.mapStatus .m0)
  | 0x0D4 => some (.mapStatus .m1)
  | _ => none

/-- The register at a byte offset of the window, if Table 11-1 assigns one. -/
def regAt (offset : Nat) : Option Reg :=
  if offset < 0x100 then commonRegAt offset
  else if offset < 0x140 then chanRegAt .ch0 (offset - 0x100)
  else if offset < 0x180 then chanRegAt .ch1 (offset - 0x140)
  else if offset < 0x1C0 then chanRegAt .ch2 (offset - 0x180)
  else none

/-- The start of a channel's register block (Table 11-1). -/
def Chan.base : Chan → Nat
  | .ch0 => 0x100 | .ch1 => 0x140 | .ch2 => 0x180

/-- The offset of a context register within its channel's block (Table 11-3). -/
def CtxReg.offset : CtxReg → Nat
  | .fmt => 0x00 | .keyLo => 0x04 | .keyHi => 0x08 | .edge => 0x0C | .lanes => 0x10 | .seg => 0x14

/-- The offset of a register (Tables 11-1 and 11-3). -/
def Reg.offset : Reg → Nat
  | .engCtrl => 0x000 | .engStatus => 0x004 | .hostFaults => 0x008 | .tickDiv => 0x00C
  | .eqHead0 => 0x010 | .eqHead1 => 0x014 | .eqNext => 0x018 | .eqPop => 0x01C
  | .eqCtrl => 0x020 | .eqStatus => 0x024
  | .stgHdr => 0x040 | .stgData => 0x044 | .stgCmd => 0x048 | .stgStatus => 0x04C
  | .apAddr => 0x060 | .apData => 0x064 | .apStatus => 0x068
  | .bankStatus b => 0x080 + 4 * b.code.toNat
  | .scnCtrl => 0x0A0 | .scnStatus => 0x0A4
  | .bldReq0 => 0x0C0 | .bldReq1 => 0x0C4 | .bldCmd => 0x0C8 | .bldStatus => 0x0CC
  | .mapStatus m => 0x0D0 + 4 * m.code.toNat
  | .ctx c r => c.base + r.offset
  | .jobCount c => c.base + 0x18 | .jobWidth c => c.base + 0x1C
  | .jobPush c => c.base + 0x20 | .chCmd c => c.base + 0x24
  | .chStatus c => c.base + 0x28 | .chProgress c => c.base + 0x2C
  | .chIn c => c.base + 0x30 | .chOut c => c.base + 0x34

/-- The register can be read: access type R, R/W or R/W1C (R177). -/
def Reg.readable : Reg → Bool
  | .eqPop | .stgHdr | .stgData | .stgCmd | .bldCmd | .jobPush _ | .chCmd _ | .chIn _ => false
  | .engCtrl | .engStatus | .hostFaults | .tickDiv | .eqHead0 | .eqHead1 | .eqNext | .eqCtrl
  | .eqStatus | .stgStatus | .apAddr | .apData | .apStatus | .bankStatus _ | .scnCtrl | .scnStatus
  | .bldReq0 | .bldReq1 | .bldStatus | .mapStatus _ | .ctx _ _ | .jobCount _ | .jobWidth _
  | .chStatus _ | .chProgress _ | .chOut _ => true

/-- The register can be written: access type W, R/W or R/W1C (R177). -/
def Reg.writable : Reg → Bool
  | .engStatus | .eqHead0 | .eqHead1 | .eqNext | .eqStatus | .stgStatus | .apStatus | .bankStatus _
  | .scnStatus | .bldStatus | .mapStatus _ | .chStatus _ | .chProgress _ | .chOut _ => false
  | .engCtrl | .hostFaults | .tickDiv | .eqPop | .eqCtrl | .stgHdr | .stgData | .stgCmd | .apAddr
  | .apData | .scnCtrl | .bldReq0 | .bldReq1 | .bldCmd | .ctx _ _ | .jobCount _ | .jobWidth _
  | .jobPush _ | .chCmd _ | .chIn _ => true

/-- The register a valid access reaches: a 32-bit access at an assigned, word-aligned offset (R176). -/
def accessReg (width offset : Nat) : Option Reg :=
  if width = 32 ∧ offset % 4 = 0 then regAt offset else none

/-- One host access as the bus presents it; `value` is the written word. -/
structure HostAccess where
  write : Bool
  width : Nat
  offset : Nat
  value : Word
deriving DecidableEq, Repr

/-- The enables a written ENG_CTRL word carries (Table 11-9). -/
def enablesOf (v : Word) : IrqEnables :=
  { urg := bitAt v 4, rtn := bitAt v 5, flt := bitAt v 6 }

/-- The command a write of ENG_CTRL is. Each of the row's four commands is the whole write of R179;
the row named is the first of SOFT_RESET, SCANOUT_ENABLE, SCANOUT_DISABLE that fits the word. -/
def decodeEngCtrl (v : Word) : Instr :=
  if bitAt v 0 then .softReset (bitAt v 1) (enablesOf v)
  else if bitAt v 1 then .scanoutEnable false (enablesOf v)
  else .scanoutDisable false (enablesOf v)

/-- The command a write of STG_CMD is (Table 11-6, R47). -/
def decodeStgCmd (v : Word) : Instr :=
  let code := fieldAt v 0 2
  let b := BankId.ofCode (fieldAt v 4 2)
  if code = 1 then .stgCmdSeal b (bitAt v 8)
  else if code = 2 then .stgCmdDiscard b
  else .stgCmdIgnored code

/-- The command a write of BLD_CMD is (Table 11-6, R107). -/
def decodeBldCmd (v : Word) : Instr :=
  let code := fieldAt v 0 2
  if code = 1 then .bldCmdRequest
  else if code = 2 then .bldCmdAbort (MapId.ofFlag (bitAt v 4))
  else .bldCmdIgnored code

/-- The command a write of a channel's CH_CMD is (Table 11-6, R135). -/
def decodeChCmd (c : Chan) (v : Word) : Instr :=
  let code := fieldAt v 0 2
  if code = 1 then .chCmdAbort c
  else if code = 2 then .chCmdResume c
  else if code = 3 then .chCmdReset c
  else .chCmdIgnored c code

/-- The command a valid write of a writable register is. -/
def decodeWrite (r : Reg) (v : Word) : Option Instr :=
  match r with
  | .engCtrl => some (decodeEngCtrl v)
  | .hostFaults => some (.hostFaults v)
  | .tickDiv => some (.tickDiv v)
  | .eqPop => some (.eqPop v)
  | .eqCtrl => some (.eqCtrl v)
  | .stgHdr => some (.stgHdr v)
  | .stgData => some (.stgData v)
  | .stgCmd => some (decodeStgCmd v)
  | .apAddr => some (.apAddr v)
  | .apData => some (.apDataWrite v)
  | .scnCtrl => some (.scnCtrl v)
  | .bldReq0 => some (.registerWrite .bldReq0 v)
  | .bldReq1 => some (.registerWrite .bldReq1 v)
  | .bldCmd => some (decodeBldCmd v)
  | .ctx c x => some (.ctxWrite c x v)
  | .jobCount c => some (.registerWrite (.jobCount c) v)
  | .jobWidth c => some (.registerWrite (.jobWidth c) v)
  | .jobPush c => some (.jobPush c v)
  | .chCmd c => some (decodeChCmd c v)
  | .chIn c => some (.chIn c v)
  | .engStatus | .eqHead0 | .eqHead1 | .eqNext | .eqStatus | .stgStatus | .apStatus | .bankStatus _
  | .scnStatus | .bldStatus | .mapStatus _ | .chStatus _ | .chProgress _ | .chOut _ => none

/-- The command a valid read of a readable register is: none where the read changes nothing and the
table has no row for it. -/
def decodeRead (r : Reg) : Option Instr :=
  match r with
  | .eqHead0 => some .eqHead0
  | .eqHead1 => some .eqHead1
  | .eqNext => some .eqNext
  | .apData => some .apDataRead
  | .chOut c => some (.chOut c)
  | _ => none

/-- The command of the table that a host access is (R176, R177); none for the valid reads that change
nothing. -/
def decodeAccess (a : HostAccess) : Option Instr :=
  match accessReg a.width a.offset with
  | none => some (.invalidAccess a.write a.width a.offset)
  | some r =>
    if a.write then
      if r.writable then decodeWrite r a.value else some (.wrongTypeAccess true r)
    else if r.readable then decodeRead r else some (.wrongTypeAccess false r)

/-- The register a REGISTER_WRITE goes to. -/
def PlainReg.reg : PlainReg → Reg
  | .bldReq0 => .bldReq0 | .bldReq1 => .bldReq1
  | .jobCount c => .jobCount c | .jobWidth c => .jobWidth c

/-- The written ENG_CTRL word with the given fields (Table 11-9). -/
def engCtrlWord (softReset scanoutEnable : Bool) (en : IrqEnables) : Word :=
  putBit softReset 0 ||| putBit scanoutEnable 1 ||| putBit en.urg 4 ||| putBit en.rtn 5 |||
    putBit en.flt 6

/-- A valid 32-bit write of a register. -/
def writeOf (r : Reg) (v : Word) : HostAccess :=
  { write := true, width := 32, offset := r.offset, value := v }

/-- A valid 32-bit read of a register. -/
def readOf (r : Reg) : HostAccess :=
  { write := false, width := 32, offset := r.offset, value := 0 }

/-- The host access that spells a command, for the commands that are accesses (the layouts of Tables
11-6 and 11-9). -/
def accessOf (i : Instr) : Option HostAccess :=
  match i with
  | .fullReset | .frameStart | .lookup _ | .tick | .stalled _ | .overdue | .insertionEvent
  | .fetchCompletion | .buildStart | .cellCompletion | .segmentStartAttempt _ | .pixelStep _ => none
  | .invalidAccess w width offset => some { write := w, width := width, offset := offset, value := 0 }
  | .wrongTypeAccess w r => some { write := w, width := 32, offset := r.offset, value := 0 }
  | .registerWrite r v => some (writeOf r.reg v)
  | .softReset e en => some (writeOf .engCtrl (engCtrlWord true e en))
  | .scanoutEnable r en => some (writeOf .engCtrl (engCtrlWord r true en))
  | .scanoutDisable r en => some (writeOf .engCtrl (engCtrlWord r false en))
  | .interruptEnables r e en => some (writeOf .engCtrl (engCtrlWord r e en))
  | .hostFaults v => some (writeOf .hostFaults v)
  | .tickDiv v => some (writeOf .tickDiv v)
  | .eqHead0 => some (readOf .eqHead0)
  | .eqHead1 => some (readOf .eqHead1)
  | .eqNext => some (readOf .eqNext)
  | .eqPop v => some (writeOf .eqPop v)
  | .eqCtrl v => some (writeOf .eqCtrl v)
  | .stgHdr v => some (writeOf .stgHdr v)
  | .stgData v => some (writeOf .stgData v)
  | .stgCmdSeal b n => some (writeOf .stgCmd (1 ||| putAt b.code 4 ||| putBit n 8))
  | .stgCmdDiscard b => some (writeOf .stgCmd (2 ||| putAt b.code 4))
  | .stgCmdIgnored code => some (writeOf .stgCmd (putAt code 0))
  | .apAddr v => some (writeOf .apAddr v)
  | .apDataRead => some (readOf .apData)
  | .apDataWrite v => some (writeOf .apData v)
  | .scnCtrl v => some (writeOf .scnCtrl v)
  | .bldCmdRequest => some (writeOf .bldCmd 1)
  | .bldCmdAbort m => some (writeOf .bldCmd (2 ||| putAt m.code 4))
  | .bldCmdIgnored code => some (writeOf .bldCmd (putAt code 0))
  | .ctxWrite c r v => some (writeOf (.ctx c r) v)
  | .jobPush c v => some (writeOf (.jobPush c) v)
  | .chIn c v => some (writeOf (.chIn c) v)
  | .chOut c => some (readOf (.chOut c))
  | .chCmdAbort c => some (writeOf (.chCmd c) 1)
  | .chCmdResume c => some (writeOf (.chCmd c) 2)
  | .chCmdReset c => some (writeOf (.chCmd c) 3)
  | .chCmdIgnored c code => some (writeOf (.chCmd c) (putAt code 0))

/-- The command a word spells by the table's bits. No row of the table gives bits (a block's commands
have no instruction encoding), so no word spells one. -/
def decodeTableWord (_nbits _w : Nat) : Option Instr := none

end Sys2Proof
end

