-- ==== Sys2Proof/Config.lean ====
section
/-! DEFINITION. The fixed capacities of the CQ-460 (Table 0-2) and the free values: what the manual
leaves open, as constants without a body, of which no proof can know the value. -/

namespace Sys2Proof.Config

/-- Records in the update queue (R37). -/
def maxRecords : Nat := 32
/-- Colour words in the update queue (R37). -/
def maxColourWords : Nat := 128
/-- Records of both classes in the event queue (R164). -/
def maxEvents : Nat := 32
/-- ROUTINE records in the event queue (R164). -/
def maxRoutine : Nat := 24
/-- Descriptors in a channel's job queue, the current job among them (R114). -/
def maxJobs : Nat := 8
/-- Words in an input FIFO and in an output FIFO (R131, R133). -/
def fifoDepth : Nat := 16
/-- The largest row width a push accepts (R114). -/
def maxWidth : Nat := 4096
/-- TICK_DIV after a full reset (R182). -/
def resetTickDiv : Nat := 50000

/-- FREE VALUE (log 5). What STG_STATUS shows as the OPEN record's bank when no record is OPEN (R58
gives the field a meaning only with a record OPEN), for the other bits of the register as read. -/
opaque noOpenBank : BitVec 32 → BitVec 2

/-- FREE VALUE (log 6). Whether M1 is given the notice of a bank's change before M0, at the nth free
choice (R25 does not order the two maps). -/
opaque secondMapFirst : Nat → Bool

/-- FREE VALUE (log 7). Which of the six orders of the three channels the stall expiries of one tick
follow, at the nth free choice (R126, R182 do not order the channels). -/
opaque expiryOrder : Nat → Fin 6

/-- FREE VALUE (log 8). The index a reduction through an invalid cell gives, for the cell number: an
invalid cell's fields "have no meaning" (R77), and no segment reads one (R78, R90). -/
opaque invalidCellIndex : Nat → BitVec 8

end Sys2Proof.Config
end

