-- ==== Sys2Proof/Machine/State.lean ====
section
/-! DEFINITION. The state of the part: every piece of state that chapters 2 to 11 name, as plain data,
with its value after a full reset, and the queue of waiting commands. Views that a rule fixes by other
state (a bank's sealed-pending flag and display role, a map's build-pending flag, IRQ) are functions
in Ops.lean and Flags.lean and have no field here. -/

namespace Sys2Proof.Machine

/-! ## Collections with one member for each bank, map or channel -/

/-- One value for each bank. -/
structure PerBank (α : Type) where
  b0 : α
  b1 : α
  b2 : α
  b3 : α
deriving DecidableEq, Repr

/-- One value for each map. -/
structure PerMap (α : Type) where
  m0 : α
  m1 : α
deriving DecidableEq, Repr

/-- One value for each channel. -/
structure PerChan (α : Type) where
  ch0 : α
  ch1 : α
  ch2 : α
deriving DecidableEq, Repr

/-- The bank's value. -/
def PerBank.get {α : Type} (p : PerBank α) : BankId → α
  | .b0 => p.b0 | .b1 => p.b1 | .b2 => p.b2 | .b3 => p.b3

/-- `p` with the bank's value replaced. -/
def PerBank.set {α : Type} (p : PerBank α) (b : BankId) (x : α) : PerBank α :=
  match b with
  | .b0 => { p with b0 := x } | .b1 => { p with b1 := x }
  | .b2 => { p with b2 := x } | .b3 => { p with b3 := x }

/-- The map's value. -/
def PerMap.get {α : Type} (p : PerMap α) : MapId → α
  | .m0 => p.m0 | .m1 => p.m1

/-- `p` with the map's value replaced. -/
def PerMap.set {α : Type} (p : PerMap α) (m : MapId) (x : α) : PerMap α :=
  match m with
  | .m0 => { p with m0 := x } | .m1 => { p with m1 := x }

/-- The channel's value. -/
def PerChan.get {α : Type} (p : PerChan α) : Chan → α
  | .ch0 => p.ch0 | .ch1 => p.ch1 | .ch2 => p.ch2

/-- `p` with the channel's value replaced. -/
def PerChan.set {α : Type} (p : PerChan α) (c : Chan) (x : α) : PerChan α :=
  match c with
  | .ch0 => { p with ch0 := x } | .ch1 => { p with ch1 := x } | .ch2 => { p with ch2 := x }

/-! ## Colours and formats (chapter 1) -/

/-- An entry (A, R, G, B) (R1). -/
structure Entry where
  a : Byte
  r : Byte
  g : Byte
  b : Byte
deriving DecidableEq, Repr

/-- The entry (0, 0, 0, 0), which every entry of a bank is after a full reset (R13). -/
def Entry.zero : Entry := { a := 0, r := 0, g := 0, b := 0 }

/-- The five pixel formats (Table 1-2). -/
inductive Format where
  | a8888 | r565 | a1555 | a4444 | i8
deriving DecidableEq, Repr

/-- What an output lane selector names (R12). -/
inductive Component where
  | b | g | r | a
deriving DecidableEq, Repr

/-! ## Palette store (chapter 2) -/

/-- The state kept for one bank (Table 2-1). `entries` lists (index, entry) pairs in the canonical
form of `Palette.wf`: an index it does not list holds (0, 0, 0, 0). -/
structure Bank where
  entries : List (Nat × Entry)
  generation : BitVec 16
  holders : Nat
deriving DecidableEq, Repr

/-! ## Update queue (chapter 3) -/

/-- The states of an update record (R38). -/
inductive RecordState where
  | opened | closed | sealed
deriving DecidableEq, Repr

/-- An update record (Table 3-1). -/
structure UpdateRecord where
  bank : BankId
  start : Byte
  count : Nat
  colours : List Entry
  state : RecordState
  notify : Bool
deriving DecidableEq, Repr

/-- A bank's commit state (R48). -/
inductive CommitState where
  | none | pending | deferred
deriving DecidableEq, Repr

/-- The update queue: the records in staging order (R36) and each bank's commit state (R48). -/
structure UpdateQueue where
  records : List UpdateRecord
  commit : PerBank CommitState
deriving DecidableEq, Repr

/-! ## Table access port (chapter 4) -/

/-- A target of the port (R60). -/
inductive PortTarget where
  | bank (b : BankId)
  | map (m : MapId)
deriving DecidableEq, Repr

/-- The port: its address (R60), the items present for the positions from the current index onward
(R63), whether a fill is in progress, and whether a read of AP_DATA is stretched (R67). The one fetch
in flight of a fill is for the first position without an item. -/
structure AccessPort where
  target : PortTarget
  index : Nat
  items : List Word
  filling : Bool
  stretched : Bool
deriving DecidableEq, Repr

/-! ## Reduction maps (chapter 5) and the build engine (chapter 6) -/

/-- The parameters of a build (the second group of Table 5-1). -/
structure MapParams where
  source : BankId
  nr : Nat
  ng : Nat
  nb : Nat
  first : Byte
  last : Byte
  skipTransparent : Bool
  transparent : Option Byte
  autoRebuild : Bool
deriving DecidableEq, Repr

/-- The states of a map (Table 5-4). -/
inductive MapState where
  | empty | building | ready | stale
deriving DecidableEq, Repr

/-- A valid cell (R77). -/
structure Cell where
  best : Byte
  second : Option Byte
  weight : Nat
deriving DecidableEq, Repr

/-- A map record with its cells (Table 5-1): `cells` are the valid cells, which are the cells below
its length, since the engine writes them in ascending cell number (R80, R100). -/
structure ReductionMap where
  state : MapState
  generation : BitVec 16
  holders : Nat
  params : MapParams
  cells : List Cell
deriving DecidableEq, Repr

/-- The kinds of event record (R162). -/
inductive EventKind where
  | jobDone | jobFault | segment | buildDone | buildFault | commit
deriving DecidableEq, Repr

/-- The two classes of event records. -/
inductive EventClass where
  | urgent | routine
deriving DecidableEq, Repr

/-- An event record without its stamp, which it receives at insertion (Table 10-1). -/
structure EventRecord where
  kind : EventKind
  cls : EventClass
  source : BitVec 2
  tag : Byte
  detail1 : Nat
  detail2 : Nat
deriving DecidableEq, Repr

/-- A record in the event queue, with its stamp (R163). -/
structure StampedRecord where
  record : EventRecord
  stamp : BitVec 16
deriving DecidableEq, Repr

/-- A build request (R95). -/
structure BuildRequest where
  map : MapId
  params : MapParams
deriving DecidableEq, Repr

/-- The parameter registers BLD_REQ0 and BLD_REQ1 (Table 6-1). -/
structure BuildRegs where
  map : MapId
  source : BankId
  first : Byte
  last : Byte
  nr : BitVec 4
  ng : BitVec 4
  nb : BitVec 4
  skipTransparent : Bool
  autoRebuild : Bool
  transparentPresent : Bool
  transparentValue : Byte
deriving DecidableEq, Repr

/-- The states of the build engine; POST holds the record that waits (R96, R104). -/
inductive EngineState where
  | idle | building
  | post (r : EventRecord)
deriving DecidableEq, Repr

/-- The build engine (R93, R95, R96). -/
structure BuildEngine where
  state : EngineState
  current : MapId
  progress : Nat
  abortSlot : Option EventRecord
  requests : List BuildRequest
  regs : BuildRegs
deriving DecidableEq, Repr

/-! ## Conversion channels (chapters 7 and 8) -/

/-- The fault codes (R124, R108). -/
inductive FaultCode where
  | stalled | overrun | aborted | mapUnusable | noCandidates
deriving DecidableEq, Repr

/-- The output lane selectors (R12). -/
structure LaneSelectors where
  lane0 : Component
  lane1 : Component
  lane2 : Component
  lane3 : Component
deriving DecidableEq, Repr

/-- A channel's context (Table 7-1). -/
structure Context where
  src : Format
  dst : Format
  bank : BankId
  map : MapId
  acceptStale : Bool
  dither : Bool
  keyEnA : Bool
  keyEnR : Bool
  keyEnG : Bool
  keyEnB : Bool
  keyLo : Entry
  keyHi : Entry
  edgeEn : Bool
  edgeAlpha : Byte
  lanes : LaneSelectors
  segLen : BitVec 16
  stallLimit : Byte
deriving DecidableEq, Repr

/-- A job descriptor (Table 7-2). -/
structure Job where
  count : Nat
  width : Nat
  tag : Byte
  urgent : Bool
  segNotify : Bool
deriving DecidableEq, Repr

/-- The wait reasons of WAIT (R116). -/
inductive WaitReason where
  | start | bankCommit | mapBusy
deriving DecidableEq, Repr

/-- The states of a channel; POST holds the record that waits (Table 7-3, R123). -/
inductive ChanState where
  | idle
  | wait (r : WaitReason)
  | run
  | post (r : EventRecord)
  | halted
deriving DecidableEq, Repr

/-- The pixel held by the edge step, as it left the key step, with its number and the left-neighbour
flag (R138). -/
structure HeldPixel where
  number : Nat
  entry : Entry
  leftTransparent : Bool
deriving DecidableEq, Repr

/-- The state of the pixel path (Table 8-1). The unfilled lanes of `outWord` are 0. -/
structure PixelPath where
  next : Nat
  inWord : Option Word
  held : Option HeldPixel
  outWord : Option Word
  done : Nat
deriving DecidableEq, Repr

/-- A conversion channel (R111, R113, R115, R116, R131, R133, R136, R138). -/
structure Channel where
  ctx : Context
  jobCount : BitVec 20
  jobWidth : BitVec 13
  jobs : List Job
  state : ChanState
  segment : Nat
  tag : Byte
  lastFault : Option FaultCode
  inFifo : List Word
  outFifo : List Word
  path : PixelPath
  stall : Nat
deriving DecidableEq, Repr

/-! ## Scanout (chapter 9), event queue (chapter 10), window (chapter 11) -/

/-- The states of the scanout unit (R155). -/
inductive ScanoutState where
  | off | armed | on
deriving DecidableEq, Repr

/-- The scanout unit (Table 9-1). -/
structure Scanout where
  state : ScanoutState
  current : BankId
  next : BankId
  frame : BitVec 16
deriving DecidableEq, Repr

/-- The event queue with its claim, stamp counter, interrupt settings and coalescing timer (R163 to
R173). The claimed record is the oldest of the claimed class (R165, R166). -/
structure EventQueue where
  urgent : List StampedRecord
  routine : List StampedRecord
  claim : Option EventClass
  stamp : BitVec 16
  threshold : BitVec 5
  timeout : Byte
  timer : Nat
  overdue : Bool
  lastServed : Chan
deriving DecidableEq, Repr

/-- TICK_DIV and the timebase's count of engine clock cycles towards its next tick (R182). -/
structure Timebase where
  div : BitVec 16
  count : Nat
deriving DecidableEq, Repr

/-- What the part last put on its two read paths: the data of the last host read that returned, and
the entry word of the last lookup. -/
structure Bus where
  readData : Word
  lookupData : Word
deriving DecidableEq, Repr

/-- The state of the part, with the queue of waiting commands (first in, first out) and the model's
own counter of the free choices taken so far (log 6, log 7). -/
structure State where
  banks : PerBank Bank
  uq : UpdateQueue
  port : AccessPort
  maps : PerMap ReductionMap
  engine : BuildEngine
  channels : PerChan Channel
  scanout : Scanout
  eq : EventQueue
  hostFaults : BitVec 10
  enables : IrqEnables
  timebase : Timebase
  bus : Bus
  freeCount : Nat
  pending : List Instr
deriving DecidableEq, Repr

/-- The reasons the machine could stop with a fault: none. The part has no such event: its faults are
event records and host-fault flags, which are effects on `State`. -/
inductive Fault where
deriving DecidableEq, Repr

/-- The reasons a command could be refused. -/
inductive Refusal where
  /-- Raised by `exec` for a command that has no meaning yet; no command of this model raises it.
  Safe: it stops the run where the part goes on. -/
  | notModelled (mnemonic : String)
deriving DecidableEq, Repr

/-- What a meaning answers. -/
abbrev Result := Host.Outcome State Fault Refusal

/-! ## Values after reset -/

/-- A bank after a full reset (Table 2-1). -/
def Bank.reset : Bank := { entries := [], generation := 0, holders := 0 }

/-- The update queue after a full or soft reset (R59). -/
def UpdateQueue.reset : UpdateQueue :=
  { records := [], commit := { b0 := .none, b1 := .none, b2 := .none, b3 := .none } }

/-- The access port after a full or soft reset (R72). -/
def AccessPort.reset : AccessPort :=
  { target := .bank .b0, index := 0, items := [], filling := false, stretched := false }

/-- The recorded parameters of a map after a full or soft reset (Table 5-1). -/
def MapParams.reset : MapParams :=
  { source := .b0, nr := 2, ng := 2, nb := 2, first := 0, last := 255, skipTransparent := false,
    transparent := none, autoRebuild := false }

/-- A map after a full reset (Table 5-1). -/
def ReductionMap.reset : ReductionMap :=
  { state := .empty, generation := 0, holders := 0, params := MapParams.reset, cells := [] }

/-- BLD_REQ0 and BLD_REQ1 after a full or soft reset (Table 6-1). -/
def BuildRegs.reset : BuildRegs :=
  { map := .m0, source := .b0, first := 0, last := 255, nr := 2, ng := 2, nb := 2,
    skipTransparent := false, autoRebuild := false, transparentPresent := false,
    transparentValue := 0 }

/-- The build engine after a full or soft reset (R96, R110). -/
def BuildEngine.reset : BuildEngine :=
  { state := .idle, current := .m0, progress := 0, abortSlot := none, requests := [],
    regs := BuildRegs.reset }

/-- A context after a full or soft reset (Table 7-1). -/
def Context.reset : Context :=
  { src := .a8888, dst := .a8888, bank := .b0, map := .m0, acceptStale := false, dither := false,
    keyEnA := false, keyEnR := false, keyEnG := false, keyEnB := false, keyLo := Entry.zero,
    keyHi := Entry.zero, edgeEn := false, edgeAlpha := 0,
    lanes := { lane0 := .b, lane1 := .g, lane2 := .r, lane3 := .a }, segLen := 0, stallLimit := 0 }

/-- The pixel path when a job becomes current and after a reset (Table 8-1). -/
def PixelPath.fresh : PixelPath :=
  { next := 0, inWord := none, held := none, outWord := none, done := 0 }

/-- A channel after a full or soft reset (R137). -/
def Channel.reset : Channel :=
  { ctx := Context.reset, jobCount := 0, jobWidth := 0, jobs := [], state := .idle, segment := 0,
    tag := 0, lastFault := none, inFifo := [], outFifo := [], path := PixelPath.fresh, stall := 0 }

/-- The scanout unit after a full reset (Table 9-1). -/
def Scanout.reset : Scanout := { state := .off, current := .b0, next := .b0, frame := 0 }

/-- The event queue after a full reset (R172, R175). -/
def EventQueue.reset : EventQueue :=
  { urgent := [], routine := [], claim := none, stamp := 0, threshold := 1, timeout := 0, timer := 0,
    overdue := false, lastServed := .ch2 }

/-- The part right after a full reset (R181), with an empty queue. The two bus words have no reset
value in the spec: DESIGN CHOICE 0 (log 1). -/
def State.reset : State :=
  { banks := { b0 := Bank.reset, b1 := Bank.reset, b2 := Bank.reset, b3 := Bank.reset }
    uq := UpdateQueue.reset
    port := AccessPort.reset
    maps := { m0 := ReductionMap.reset, m1 := ReductionMap.reset }
    engine := BuildEngine.reset
    channels := { ch0 := Channel.reset, ch1 := Channel.reset, ch2 := Channel.reset }
    scanout := Scanout.reset
    eq := EventQueue.reset
    hostFaults := 0
    enables := { urg := false, rtn := false, flt := false }
    timebase := { div := BitVec.ofNat 16 Config.resetTickDiv, count := 0 }
    bus := { readData := 0, lookupData := 0 }
    freeCount := 0
    pending := [] }

end Sys2Proof.Machine
end

