-- ==== Sys2Proof/Machine/Flags.lean ====
section
/-! DEFINITION. The host-fault flags (R178), the four conditions that drive IRQ and the line itself
(R171). -/

namespace Sys2Proof.Machine

/-- The ten host-fault flags (Table 11-2). -/
inductive HostFault where
  | badAccess | settingRefused | stageRefused | accessRefused | jobRefused
  | inputDropped | outputEmpty | popNoClaim | buildRefused | cmdIgnored
deriving DecidableEq, Repr

/-- The flag's bit of HOST_FAULTS (Table 11-2). -/
def HostFault.bit : HostFault → Nat
  | .badAccess => 0 | .settingRefused => 1 | .stageRefused => 2 | .accessRefused => 3
  | .jobRefused => 4 | .inputDropped => 5 | .outputEmpty => 6 | .popNoClaim => 7
  | .buildRefused => 8 | .cmdIgnored => 9

/-- The HOST_FAULTS value with only this flag set. -/
def HostFault.mask (f : HostFault) : BitVec 10 := BitVec.ofNat 10 (2 ^ f.bit)

/-- Setting a flag; setting a set flag changes nothing (R178). -/
def State.flag (s : State) (f : HostFault) : State := { s with hostFaults := s.hostFaults ||| f.mask }

/-- The flag is set. -/
def State.flagged (s : State) (f : HostFault) : Bool := s.hostFaults.getLsbD f.bit

/-- The URGENT count (R164). -/
def EventQueue.urgentCount (q : EventQueue) : Nat := q.urgent.length

/-- The ROUTINE count (R164). -/
def EventQueue.routineCount (q : EventQueue) : Nat := q.routine.length

/-- The URGENT count is above 0 and URG_EN is set (R171). -/
def State.urgentCondition (s : State) : Bool := decide (0 < s.eq.urgentCount) && s.enables.urg

/-- The ROUTINE count is at or above the threshold and RTN_EN is set (R171). -/
def State.routineCondition (s : State) : Bool :=
  decide (s.eq.threshold.toNat ≤ s.eq.routineCount) && s.enables.rtn

/-- The overdue flag is set and RTN_EN is set (R171). -/
def State.overdueCondition (s : State) : Bool := s.eq.overdue && s.enables.rtn

/-- A host-fault flag is set and FLT_EN is set (R171). -/
def State.faultCondition (s : State) : Bool := decide (s.hostFaults ≠ 0) && s.enables.flt

/-- The IRQ pin: asserted while at least one of the four conditions holds (R171). -/
def State.irq (s : State) : Bool :=
  s.urgentCondition || s.routineCondition || s.overdueCondition || s.faultCondition

end Sys2Proof.Machine
end

