-- ==== Sys2Proof/Machine/Palette.lean ====
section
/-! DEFINITION. The entries of a bank as an addressed RAM: reading and writing one entry of the sparse
canonical list, and its well-formedness (R13). -/

namespace Sys2Proof.Machine

/-- The number of entries of a bank (R13). -/
def Palette.size : Nat := 256

/-- The entry at an index; an index the list does not hold is (0, 0, 0, 0), as after a full reset. -/
def Palette.read (p : List (Nat × Entry)) (i : Nat) : Entry :=
  match p with
  | [] => Entry.zero
  | (j, e) :: rest => if j = i then e else Palette.read rest i

/-- The list without the entry at `i`. -/
def Palette.drop (p : List (Nat × Entry)) (i : Nat) : List (Nat × Entry) :=
  match p with
  | [] => []
  | (j, e) :: rest => if j = i then rest else (j, e) :: Palette.drop rest i

/-- The list with the entry at `i` put in its place by rising index. -/
def Palette.insert (p : List (Nat × Entry)) (i : Nat) (x : Entry) : List (Nat × Entry) :=
  match p with
  | [] => [(i, x)]
  | (j, e) :: rest =>
    if i < j then (i, x) :: (j, e) :: rest
    else if j = i then (i, x) :: rest
    else (j, e) :: Palette.insert rest i x

/-- Writing one entry. Writing (0, 0, 0, 0) removes the pair, so that equal banks are equal lists. -/
def Palette.write (p : List (Nat × Entry)) (i : Nat) (x : Entry) : List (Nat × Entry) :=
  if x = Entry.zero then Palette.drop p i else Palette.insert p i x

/-- Writing a run of entries from index `i` on, in order (R30). -/
def Palette.writeRun (p : List (Nat × Entry)) (i : Nat) (xs : List Entry) : List (Nat × Entry) :=
  match xs with
  | [] => p
  | x :: rest => Palette.writeRun (Palette.write p i x) (i + 1) rest

/-- Every index of the list is at least `lo`, the indices rise strictly and lie below the bank's size,
and no pair holds (0, 0, 0, 0). -/
def Palette.wfFrom (lo : Nat) (p : List (Nat × Entry)) : Bool :=
  match p with
  | [] => true
  | (j, e) :: rest =>
    decide (lo ≤ j) && decide (j < Palette.size) && decide (e ≠ Entry.zero) &&
      Palette.wfFrom (j + 1) rest

/-- The canonical form of a bank's entries. -/
def Palette.wf (p : List (Nat × Entry)) : Bool := Palette.wfFrom 0 p

end Sys2Proof.Machine
end

