-- ==== Sys2Proof/Machine/Color.lean ====
section
/-! DEFINITION. The arithmetic of chapter 1: entry words, format codes, lanes, expansion, truncation
and output lane arrangement. -/

namespace Sys2Proof.Machine

/-- The entry a 32-bit entry word carries (R2, Table 1-1). -/
def Entry.ofWord (v : Word) : Entry :=
  { a := fieldAt v 24 8, r := fieldAt v 16 8, g := fieldAt v 8 8, b := fieldAt v 0 8 }

/-- The entry word of an entry (R2, Table 1-1). -/
def Entry.toWord (e : Entry) : Word :=
  putAt e.a 24 ||| putAt e.r 16 ||| putAt e.g 8 ||| putAt e.b 0

/-- The format a code names; codes 5, 6 and 7 are undefined (R4). -/
def Format.ofCode (x : BitVec 3) : Option Format :=
  if x = 0 then some .a8888 else if x = 1 then some .r565 else if x = 2 then some .a1555
  else if x = 3 then some .a4444 else if x = 4 then some .i8 else none

/-- The code of a format (Table 1-2). -/
def Format.code : Format → BitVec 3
  | .a8888 => 0 | .r565 => 1 | .a1555 => 2 | .a4444 => 3 | .i8 => 4

/-- Pixels per word (Table 1-2). -/
def Format.perWord : Format → Nat
  | .a8888 => 1 | .r565 => 2 | .a1555 => 2 | .a4444 => 2 | .i8 => 4

/-- The width of a lane in bits (Table 1-2). -/
def Format.laneBits : Format → Nat
  | .a8888 => 32 | .r565 => 16 | .a1555 => 16 | .a4444 => 16 | .i8 => 8

/-- The lane of pixel `k` within its word (R5). -/
def Format.laneOf (f : Format) (k : Nat) : Nat := k % f.perWord

/-- The contents of lane `n` of a pixel word, moved to the lowest bits (Table 11-4). -/
def Format.laneValue (f : Format) (v : Word) (n : Nat) : Word :=
  BitVec.ofNat 32 (v.toNat / 2 ^ (n * f.laneBits) % 2 ^ f.laneBits)

/-- A pixel value put into lane `n` of a word whose other lanes are 0 (Table 11-4). -/
def Format.inLane (f : Format) (x : Word) (n : Nat) : Word := x <<< (n * f.laneBits)

/-! ## Expansion (Table 1-4) -/

/-- A 5-bit field as a component. -/
def expand5 (v : BitVec 5) : Byte := BitVec.ofNat 8 (8 * v.toNat + v.toNat / 4)
/-- A 6-bit field as a component. -/
def expand6 (v : BitVec 6) : Byte := BitVec.ofNat 8 (4 * v.toNat + v.toNat / 16)
/-- A 4-bit field as a component. -/
def expand4 (v : BitVec 4) : Byte := BitVec.ofNat 8 (17 * v.toNat)
/-- A 1-bit field as a component. -/
def expand1 (v : Bool) : Byte := if v then 255 else 0

/-- The entry of a pixel given by its lane's contents (R8, R9, Table 11-4); `bank` is the entries of
the context bank, one of which an I8 pixel's index names. -/
def expandPixel (f : Format) (bank : List (Nat × Entry)) (x : Word) : Entry :=
  match f with
  | .a8888 => Entry.ofWord x
  | .r565 =>
    { a := 255, r := expand5 (fieldAt x 11 5), g := expand6 (fieldAt x 5 6),
      b := expand5 (fieldAt x 0 5) }
  | .a1555 =>
    { a := expand1 (bitAt x 15), r := expand5 (fieldAt x 10 5), g := expand5 (fieldAt x 5 5),
      b := expand5 (fieldAt x 0 5) }
  | .a4444 =>
    { a := expand4 (fieldAt x 12 4), r := expand4 (fieldAt x 8 4), g := expand4 (fieldAt x 4 4),
      b := expand4 (fieldAt x 0 4) }
  | .i8 => Palette.read bank (fieldAt x 0 8).toNat

/-! ## Truncation (Table 1-5) and output lanes (R12) -/

/-- A component cut to a 5-bit field. -/
def trunc5 (c : Byte) : BitVec 5 := BitVec.ofNat 5 (c.toNat / 8)
/-- A component cut to a 6-bit field. -/
def trunc6 (c : Byte) : BitVec 6 := BitVec.ofNat 6 (c.toNat / 4)
/-- A component cut to a 4-bit field. -/
def trunc4 (c : Byte) : BitVec 4 := BitVec.ofNat 4 (c.toNat / 16)
/-- A component cut to a 1-bit field. -/
def trunc1 (c : Byte) : Bool := decide (128 ≤ c.toNat)

/-- The component an output lane selector names (R12). -/
def Entry.component (e : Entry) : Component → Byte
  | .b => e.b | .g => e.g | .r => e.r | .a => e.a

/-- An A8888 output word: each byte lane takes the component its selector names (R12). -/
def arrange (l : LaneSelectors) (e : Entry) : Word :=
  putAt (e.component l.lane3) 24 ||| putAt (e.component l.lane2) 16 |||
    putAt (e.component l.lane1) 8 ||| putAt (e.component l.lane0) 0

/-- An R565 pixel, in the lane's lowest bits (R10, Table 11-4). -/
def packR565 (e : Entry) : Word :=
  putAt (trunc5 e.r) 11 ||| putAt (trunc6 e.g) 5 ||| putAt (trunc5 e.b) 0

/-- An A1555 pixel, in the lane's lowest bits (R10, Table 11-4). -/
def packA1555 (e : Entry) : Word :=
  putBit (trunc1 e.a) 15 ||| putAt (trunc5 e.r) 10 ||| putAt (trunc5 e.g) 5 ||| putAt (trunc5 e.b) 0

/-- An A4444 pixel, in the lane's lowest bits (R10, Table 11-4). -/
def packA4444 (e : Entry) : Word :=
  putAt (trunc4 e.a) 12 ||| putAt (trunc4 e.r) 8 ||| putAt (trunc4 e.g) 4 ||| putAt (trunc4 e.b) 0

end Sys2Proof.Machine
end

