-- ==== Sys2Proof/Machine/Operands.lean ====
section
/-! DEFINITION. The operand forms: the fields of every word the host writes (Tables 11-6 and 11-9). -/

namespace Sys2Proof.Machine

/-- The fields of a written STG_HDR word. -/
structure StgHeader where
  bank : BankId
  start : Byte
  count : Nat
deriving DecidableEq, Repr

/-- The fields of a written STG_HDR word (Table 11-6). -/
def StgHeader.ofWord (v : Word) : StgHeader :=
  { bank := BankId.ofCode (fieldAt v 16 2), start := fieldAt v 0 8, count := (fieldAt v 8 4).toNat }

/-- The target a 3-bit field names; 6 and 7 name none (R60). -/
def PortTarget.ofCode (x : BitVec 3) : Option PortTarget :=
  if x = 0 then some (.bank .b0) else if x = 1 then some (.bank .b1)
  else if x = 2 then some (.bank .b2) else if x = 3 then some (.bank .b3)
  else if x = 4 then some (.map .m0) else if x = 5 then some (.map .m1) else none

/-- The number of a target (R60). -/
def PortTarget.code : PortTarget → BitVec 3
  | .bank b => b.code.setWidth 3
  | .map .m0 => 4
  | .map .m1 => 5

/-- The number of positions of a target: 256 entries of a bank, 512 positions of a map (R60, R61). -/
def PortTarget.positions : PortTarget → Nat
  | .bank _ => 256
  | .map _ => 512

/-- The address a written AP_ADDR word gives, where R60 accepts it. -/
def apAddress (v : Word) : Option (PortTarget × Nat) :=
  match PortTarget.ofCode (fieldAt v 16 3) with
  | none => none
  | some t => if (fieldAt v 0 9).toNat < t.positions then some (t, (fieldAt v 0 9).toNat) else none

/-- BLD_REQ0 with its fields replaced by those of a written word (Table 11-6). -/
def BuildRegs.withReq0 (r : BuildRegs) (v : Word) : BuildRegs :=
  { r with first := fieldAt v 0 8, last := fieldAt v 8 8, source := BankId.ofCode (fieldAt v 16 2),
           map := MapId.ofFlag (bitAt v 20) }

/-- BLD_REQ1 with its fields replaced by those of a written word (Table 11-6). -/
def BuildRegs.withReq1 (r : BuildRegs) (v : Word) : BuildRegs :=
  { r with nr := fieldAt v 0 4, ng := fieldAt v 4 4, nb := fieldAt v 8 4,
           skipTransparent := bitAt v 12, autoRebuild := bitAt v 13, transparentPresent := bitAt v 15,
           transparentValue := fieldAt v 16 8 }

/-- The parameters a REQUEST copies from the registers (R93, R94): an absent transparent index leaves
its held value behind. -/
def BuildRegs.params (r : BuildRegs) : MapParams :=
  { source := r.source, nr := r.nr.toNat, ng := r.ng.toNat, nb := r.nb.toNat, first := r.first,
    last := r.last, skipTransparent := r.skipTransparent,
    transparent := if r.transparentPresent then some r.transparentValue else none,
    autoRebuild := r.autoRebuild }

/-- A dimension a REQUEST accepts (R94). -/
def dimOk (n : Nat) : Bool := decide (2 ≤ n ∧ n ≤ 8)

/-- The parameters are ones a REQUEST accepts (the third and fourth cases of R94 do not hold). -/
def MapParams.valid (p : MapParams) : Bool :=
  decide (p.first.toNat ≤ p.last.toNat) && dimOk p.nr && dimOk p.ng && dimOk p.nb

/-- The component a 2-bit output lane selector names (Table 11-9). -/
def Component.ofCode (x : BitVec 2) : Component :=
  if x = 0 then .b else if x = 1 then .g else if x = 2 then .r else .a

/-- The code of an output lane selector (Table 11-9). -/
def Component.code : Component → BitVec 2
  | .b => 0 | .g => 1 | .r => 2 | .a => 3

/-- The context with the fields of one of its registers replaced by those of a written word (Table
11-9); none where R112 refuses a CTX_FMT write for an undefined format code. -/
def Context.withReg (x : Context) (r : CtxReg) (v : Word) : Option Context :=
  match r with
  | .fmt =>
    match Format.ofCode (fieldAt v 0 3), Format.ofCode (fieldAt v 4 3) with
    | some src, some dst =>
      some { x with src := src, dst := dst, bank := BankId.ofCode (fieldAt v 8 2),
                    map := MapId.ofFlag (bitAt v 12), acceptStale := bitAt v 16,
                    dither := bitAt v 17 }
    | _, _ => none
  | .keyLo => some { x with keyLo := Entry.ofWord v }
  | .keyHi => some { x with keyHi := Entry.ofWord v }
  | .edge =>
    some { x with keyEnB := bitAt v 0, keyEnG := bitAt v 1, keyEnR := bitAt v 2, keyEnA := bitAt v 3,
                  edgeEn := bitAt v 8, edgeAlpha := fieldAt v 16 8 }
  | .lanes =>
    some { x with lanes := { lane0 := Component.ofCode (fieldAt v 0 2),
                             lane1 := Component.ofCode (fieldAt v 2 2),
                             lane2 := Component.ofCode (fieldAt v 4 2),
                             lane3 := Component.ofCode (fieldAt v 6 2) } }
  | .seg => some { x with segLen := fieldAt v 0 16, stallLimit := fieldAt v 16 8 }

/-- The descriptor a written JOB_PUSH word forms with the values held in JOB_COUNT and JOB_WIDTH
(R114, Table 11-6). -/
def jobOf (count : BitVec 20) (width : BitVec 13) (v : Word) : Job :=
  { count := count.toNat, width := width.toNat, tag := fieldAt v 0 8, urgent := bitAt v 8,
    segNotify := bitAt v 9 }

/-- The descriptor's count and width are ones a push accepts (R114). -/
def Job.valid (j : Job) : Bool :=
  decide (j.count ≠ 0) && decide (j.width ≠ 0) && decide (j.width ≤ Config.maxWidth)

end Sys2Proof.Machine
end

