-- ==== Sys2Proof/Machine/Reduction.lean ====
section
/-! DEFINITION. The arithmetic of a reduction map: its cells (R75, R76), the eligible set (R74), the
search that fills a cell (R77, R100), the lookup (R88, R89), and a cell as the host reads it (R62). -/

namespace Sys2Proof.Machine

/-- The number of cells of the dimensions (R75). -/
def MapParams.cellCount (p : MapParams) : Nat := p.nr * p.ng * p.nb

/-- The bin of a component along an axis of `n` divisions (R75). -/
def binOf (n : Nat) (c : Byte) : Nat := c.toNat * n / 256

/-- The cell number of a colour (R75). -/
def MapParams.cellOf (p : MapParams) (e : Entry) : Nat :=
  binOf p.nr e.r + p.nr * (binOf p.ng e.g + p.ng * binOf p.nb e.b)

/-- The centre of bin `k` along an axis of `n` divisions (R76). -/
def binCentre (n k : Nat) : Nat := (2 * k + 1) * 128 / n

/-- The centre of a cell: a red, a green and a blue (R76). -/
structure Centre where
  r : Nat
  g : Nat
  b : Nat
deriving DecidableEq, Repr

/-- The centre of cell `i`, whose bins are read back from its number (R75, R76). -/
def MapParams.centre (p : MapParams) (i : Nat) : Centre :=
  { r := binCentre p.nr (i % p.nr), g := binCentre p.ng (i / p.nr % p.ng),
    b := binCentre p.nb (i / (p.nr * p.ng)) }

/-- The square of the difference of two numbers. -/
def sqDiff (a b : Nat) : Nat := (a - b + (b - a)) * (a - b + (b - a))

/-- The distance of an entry from a centre, alpha left out (R77). -/
def distance (e : Entry) (c : Centre) : Nat :=
  sqDiff e.r.toNat c.r + sqDiff e.g.toNat c.g + sqDiff e.b.toNat c.b

/-- The eligible set of a build, in ascending index order (R74). -/
def MapParams.eligible (p : MapParams) (bank : List (Nat × Entry)) : List Nat :=
  (List.range' p.first.toNat (p.last.toNat + 1 - p.first.toNat)).filter fun i =>
    !p.skipTransparent || decide ((Palette.read bank i).a ≠ 0)

/-- The index of least distance, and the lowest of those that share it, of a list of indices in
ascending order (R100). -/
def nearest (d : Nat → Nat) (l : List Nat) : Option Nat :=
  match l with
  | [] => none
  | i :: rest =>
    match nearest d rest with
    | none => some i
    | some j => if d j < d i then some j else some i

/-- The weight of a cell with a second index, from the two distances (R77). -/
def weightOf (d1 d2 : Nat) : Nat := if d1 = d2 then 8 else 16 * d1 / (d1 + d2)

/-- The result of the search for cell `i` (R100); none when the eligible set is empty, in which case
the build has ended at its start (R99). -/
def MapParams.searchCell (p : MapParams) (bank : List (Nat × Entry)) (i : Nat) : Option Cell :=
  let d := fun j => distance (Palette.read bank j) (p.centre i)
  match nearest d (p.eligible bank) with
  | none => none
  | some best =>
    match nearest d ((p.eligible bank).filter fun j => decide (j ≠ best)) with
    | none => some { best := BitVec.ofNat 8 best, second := none, weight := 0 }
    | some second =>
      some { best := BitVec.ofNat 8 best, second := some (BitVec.ofNat 8 second),
             weight := weightOf (d best) (d second) }

/-- The dither threshold at a row and a column modulo 4 (Table 5-7). -/
def ditherThreshold (row col : Nat) : Nat :=
  match row % 4, col % 4 with
  | 0, 0 => 0 | 0, 1 => 8 | 0, 2 => 2 | 0, _ => 10
  | 1, 0 => 12 | 1, 1 => 4 | 1, 2 => 14 | 1, _ => 6
  | 2, 0 => 3 | 2, 1 => 11 | 2, 2 => 1 | 2, _ => 9
  | _, 0 => 15 | _, 1 => 7 | _, 2 => 13 | _, _ => 5

/-- The index a cell gives at position (x, y) (R89). -/
def Cell.choose (c : Cell) (dither : Bool) (x y : Nat) : Byte :=
  match c.second with
  | none => c.best
  | some t => if dither = true ∧ ditherThreshold y x < c.weight then t else c.best

/-- Reduction of an entry at position (x, y) to an index (R88, R89). -/
def ReductionMap.reduce (m : ReductionMap) (dither : Bool) (e : Entry) (x y : Nat) : Byte :=
  match if e.a = 0 then m.params.transparent else none with
  | some t => t
  | none =>
    match m.cells[m.params.cellOf e]? with
    | some c => c.choose dither x y
    | none => Config.invalidCellIndex (m.params.cellOf e)

/-- A cell as the host reads it: an invalid cell reads 0 in every field (R62, Table 11-5). -/
def cellWord (c : Option Cell) : Word :=
  match c with
  | none => 0
  | some c =>
    putBit true 31 ||| putBit c.second.isSome 20 ||| putNat 4 c.weight 16 |||
      putAt (c.second.getD 0) 8 ||| putAt c.best 0

end Sys2Proof.Machine
end

