-- ==== Sys2Proof/Machine/Ops.lean ====
section
/-! DEFINITION. The shared operations of the part: reading and replacing a bank, a map or a channel,
the views other state fixes, the access port's moves, the event queue's insertion and removal, the
commit event with its notices, the release of holds, a channel's fault and its next job, and the build
start. Every meaning is one of these or a few of them. -/

namespace Sys2Proof.Machine

/-! ## Parts of the state -/

/-- The bank's state. -/
def State.bank (s : State) (b : BankId) : Bank := s.banks.get b
/-- `s` with the bank's state replaced. -/
def State.setBank (s : State) (b : BankId) (x : Bank) : State := { s with banks := s.banks.set b x }
/-- The map's record. -/
def State.map (s : State) (m : MapId) : ReductionMap := s.maps.get m
/-- `s` with the map's record replaced. -/
def State.setMap (s : State) (m : MapId) (x : ReductionMap) : State :=
  { s with maps := s.maps.set m x }
/-- The channel's state. -/
def State.chan (s : State) (c : Chan) : Channel := s.channels.get c
/-- `s` with the channel's state replaced. -/
def State.setChan (s : State) (c : Chan) (x : Channel) : State :=
  { s with channels := s.channels.set c x }

/-- The bank's commit state (R48). -/
def State.commitOf (s : State) (b : BankId) : CommitState := s.uq.commit.get b
/-- `s` with the bank's commit state replaced. -/
def State.setCommit (s : State) (b : BankId) (x : CommitState) : State :=
  { s with uq := { s.uq with commit := s.uq.commit.set b x } }

/-! ## Views that a rule fixes by other state -/

/-- The bank's sealed-pending flag: set in PENDING and DEFERRED, clear in NONE (R20, R48). -/
def State.sealedPending (s : State) (b : BankId) : Bool := decide (s.commitOf b ≠ .none)

/-- The bank has the display role: it is the current display bank of a unit that is ON (R22). -/
def State.hasRole (s : State) (b : BankId) : Bool :=
  decide (s.scanout.state = .on ∧ s.scanout.current = b)

/-- The map's build-pending flag: the request list holds a request for it (R94). -/
def State.buildPending (s : State) (m : MapId) : Bool := s.engine.requests.any fun r => r.map == m

/-- A job is current: the channel is in WAIT, RUN or POST (R116). -/
def ChanState.hasJob : ChanState → Bool
  | .wait _ | .run | .post _ => true
  | .idle | .halted => false

/-- An update record of the bank that waits for its commit event. -/
def UpdateRecord.sealedFor (r : UpdateRecord) (b : BankId) : Bool :=
  decide (r.bank = b ∧ r.state = .sealed)

/-- The pending set of a bank: its SEALED records in staging order (R53). -/
def UpdateQueue.pendingSet (q : UpdateQueue) (b : BankId) : List UpdateRecord :=
  q.records.filter fun r => r.sealedFor b

/-- The record count (R37). -/
def UpdateQueue.recordCount (q : UpdateQueue) : Nat := q.records.length

/-- The colour-word count: the sum of the count fields (R37). -/
def UpdateQueue.wordCount (q : UpdateQueue) : Nat := (q.records.map fun r => r.count).sum

/-- The OPEN record, if there is one (R38). -/
def UpdateQueue.openRecord (q : UpdateQueue) : Option UpdateRecord :=
  q.records.find? fun r => decide (r.state = .opened)

/-! ## The host bus -/

/-- A host access's effect `f` on the part. While a read of AP_DATA is stretched, no other host access
reaches the part (R67, R176; log 4). -/
def onBus (s : State) (f : State → State) : Result :=
  if s.port.stretched then .next s else .next (f s)

/-- The data a host read returns. -/
def State.returns (s : State) (v : Word) : State := { s with bus := { s.bus with readData := v } }

/-! ## The access port (chapter 4) -/

/-- The position after `i`, with the wrap of R61. -/
def PortTarget.after (t : PortTarget) (i : Nat) : Nat := (i + 1) % t.positions

/-- The item at a position of a target, taken now (R62). -/
def State.item (s : State) (t : PortTarget) (i : Nat) : Word :=
  match t with
  | .bank b => (Palette.read (s.bank b).entries i).toWord
  | .map m => cellWord (s.map m).cells[i]?

/-- An invalidation of the port, taken when its target is the table that changed (R65). -/
def State.invalidate (s : State) (t : PortTarget) : State :=
  if s.port.target = t then { s with port := { s.port with items := [], filling := true } } else s

/-- The index advances past an item that was returned or discarded; an item for the new index stays
and a fill is in progress (R61, R64). -/
def AccessPort.advance (p : AccessPort) : AccessPort :=
  { p with index := p.target.after p.index, items := p.items.tail, filling := true }

/-! ## The event queue (chapter 10) -/

/-- A record of this class can be inserted (R164). -/
def EventQueue.hasRoom (q : EventQueue) (c : EventClass) : Bool :=
  match c with
  | .urgent => decide (q.urgentCount + q.routineCount < Config.maxEvents)
  | .routine =>
    decide (q.urgentCount + q.routineCount < Config.maxEvents ∧ q.routineCount < Config.maxRoutine)

/-- A record enters its class with the next stamp; the coalescing timer is set to 0 when the ROUTINE
count rises from 0 (R163, R173). -/
def EventQueue.insert (q : EventQueue) (r : EventRecord) : EventQueue :=
  match r.cls with
  | .urgent =>
    { q with urgent := q.urgent ++ [{ record := r, stamp := q.stamp }], stamp := q.stamp + 1 }
  | .routine =>
    { q with routine := q.routine ++ [{ record := r, stamp := q.stamp }], stamp := q.stamp + 1,
             timer := if q.routine = [] then 0 else q.timer }

/-- `s` with a record inserted into its event queue. -/
def State.insertEvent (s : State) (r : EventRecord) : State := { s with eq := s.eq.insert r }

/-- The records of a class, oldest first. -/
def EventQueue.ofClass (q : EventQueue) : EventClass → List StampedRecord
  | .urgent => q.urgent
  | .routine => q.routine

/-- The class of the record that a read would claim now: URGENT before ROUTINE (R165). -/
def EventQueue.front (q : EventQueue) : Option EventClass :=
  if q.urgent ≠ [] then some .urgent else if q.routine ≠ [] then some .routine else none

/-- The queue with the presented record claimed, if there is one and no claim exists (R166). -/
def EventQueue.claimFront (q : EventQueue) : EventQueue :=
  match q.claim with
  | some _ => q
  | none => { q with claim := q.front }

/-- The claimed record (R165). -/
def EventQueue.claimed (q : EventQueue) : Option StampedRecord :=
  match q.claim with
  | none => none
  | some c => (q.ofClass c).head?

/-- The queue with the claimed record removed and the claim ended; the overdue flag and the coalescing
timer are cleared when the ROUTINE count returns to 0 (R167, R173). -/
def EventQueue.removeClaimed (q : EventQueue) : EventQueue :=
  match q.claim with
  | none => q
  | some .urgent => { q with urgent := q.urgent.tail, claim := none }
  | some .routine =>
    { q with routine := q.routine.tail, claim := none,
             timer := if q.routine.tail = [] then 0 else q.timer,
             overdue := if q.routine.tail = [] then false else q.overdue }

/-! ## Waking the channels that wait (R120) -/

/-- The wait reason becomes START when the channel waits for this bank's commit. -/
def Channel.wakeForBank (x : Channel) (b : BankId) : Channel :=
  if x.state = .wait .bankCommit ∧ x.ctx.bank = b then { x with state := .wait .start } else x

/-- The wait reason becomes START when the channel waits for this map. -/
def Channel.wakeForMap (x : Channel) (m : MapId) : Channel :=
  if x.state = .wait .mapBusy ∧ x.ctx.map = m then { x with state := .wait .start } else x

/-- The bank's sealed-pending flag has cleared (R120). -/
def State.wakeBank (s : State) (b : BankId) : State :=
  { s with channels := { ch0 := s.channels.ch0.wakeForBank b, ch1 := s.channels.ch1.wakeForBank b,
                         ch2 := s.channels.ch2.wakeForBank b } }

/-- The map is no longer BUILDING and its build-pending flag is clear (R120). -/
def State.wakeMap (s : State) (m : MapId) : State :=
  { s with channels := { ch0 := s.channels.ch0.wakeForMap m, ch1 := s.channels.ch1.wakeForMap m,
                         ch2 := s.channels.ch2.wakeForMap m } }

/-! ## The notice of a bank's change (R25) -/

/-- The notice reaches the map: READY and sourced from the bank (R82). -/
def State.noticed (s : State) (b : BankId) (m : MapId) : Bool :=
  decide ((s.map m).state = .ready ∧ (s.map m).params.source = b)

/-- The notice makes the map place an auto-rebuild request (R83). -/
def State.placesRequest (s : State) (b : BankId) (m : MapId) : Bool :=
  s.noticed b m && (s.map m).params.autoRebuild && !s.buildPending m

/-- A request joins the end of the request list (R95). -/
def State.addRequest (s : State) (r : BuildRequest) : State :=
  { s with engine := { s.engine with requests := s.engine.requests ++ [r] } }

/-- The notice at one map: READY goes STALE, and may place its request in the same event (R82, R83). -/
def State.noticeMap (s : State) (b : BankId) (m : MapId) : State :=
  let s1 := if s.noticed b m then s.setMap m { s.map m with state := .stale } else s
  if s.placesRequest b m then s1.addRequest { map := m, params := (s.map m).params } else s1

/-- The notice at both maps. When both place a request, which is placed first is free (log 6). -/
def State.noticeMaps (s : State) (b : BankId) : State :=
  if s.placesRequest b .m0 && s.placesRequest b .m1 then
    let s1 := { s with freeCount := s.freeCount + 1 }
    if Config.secondMapFirst s.freeCount then (s1.noticeMap b .m1).noticeMap b .m0
    else (s1.noticeMap b .m0).noticeMap b .m1
  else (s.noticeMap b .m0).noticeMap b .m1

/-- The notice of a change of the bank to the maps and the access port (R25). -/
def State.notice (s : State) (b : BankId) : State := (s.noticeMaps b).invalidate (.bank b)

/-! ## The commit event (R30, R53, R54) -/

/-- The entries with one record applied (R30). -/
def applyRecord (p : List (Nat × Entry)) (r : UpdateRecord) : List (Nat × Entry) :=
  Palette.writeRun p r.start.toNat r.colours

/-- The entries with the records applied in staging order (R30). -/
def applyRecords (p : List (Nat × Entry)) (l : List UpdateRecord) : List (Nat × Entry) :=
  l.foldl applyRecord p

/-- The pending set asks for a COMMIT record (R45). -/
def UpdateQueue.asksNotice (q : UpdateQueue) (b : BankId) : Bool :=
  (q.pendingSet b).any fun r => r.notify

/-- The COMMIT record of a bank, formed after its change (R53). -/
def State.commitRecord (s : State) (b : BankId) : EventRecord :=
  { kind := .commit, cls := .routine, source := b.code, tag := 0,
    detail1 := (s.bank b).generation.toNat, detail2 := s.scanout.frame.toNat }

/-- The palette half of a commit event: the entries and the generation (R30). -/
def State.applyPending (s : State) (b : BankId) : State :=
  s.setBank b { s.bank b with
    entries := applyRecords (s.bank b).entries (s.uq.pendingSet b)
    generation := (s.bank b).generation + 1 }

/-- The queue half of a commit event: the applied records leave, the commit state is NONE (R53). -/
def State.dropPending (s : State) (b : BankId) : State :=
  { s with uq := { records := s.uq.records.filter fun r => !r.sealedFor b
                   commit := s.uq.commit.set b .none } }

/-- The commit event of a bank, taken whole (R30, R31, R53). -/
def State.commit (s : State) (b : BankId) : State :=
  let s1 := (s.applyPending b).dropPending b
  let s2 := if s.uq.asksNotice b then s1.insertEvent (s1.commitRecord b) else s1
  (s2.notice b).wakeBank b

/-- The commit event is attempted (R54): without notify, or with room for a ROUTINE record, it is
taken; otherwise the display bank stays PENDING and any other bank goes to DEFERRED. -/
def State.attemptCommit (s : State) (b : BankId) : State :=
  if s.uq.asksNotice b && !s.eq.hasRoom .routine then
    s.setCommit b (if s.hasRole b then .pending else .deferred)
  else s.commit b

/-- The bank is judged as a non-display bank: PENDING with holder count 0 reaches its commit point
(R19, R49). -/
def State.judgeBank (s : State) (b : BankId) : State :=
  if s.commitOf b = .pending ∧ (s.bank b).holders = 0 ∧ s.hasRole b = false then s.attemptCommit b
  else s

/-- The bank is judged as the display bank at a frame start (R50). -/
def State.judgeDisplay (s : State) (b : BankId) : State :=
  if s.commitOf b = .pending ∧ (s.bank b).holders = 0 then s.attemptCommit b else s

/-! ## Holds (R15 to R19, R84) -/

/-- A hold on a bank is taken. -/
def State.holdBank (s : State) (b : BankId) : State :=
  s.setBank b { s.bank b with holders := (s.bank b).holders + 1 }

/-- A hold on a map is taken. -/
def State.holdMap (s : State) (m : MapId) : State :=
  s.setMap m { s.map m with holders := (s.map m).holders + 1 }

/-- A hold on a bank is released, which may reach the bank's commit point (R19). -/
def State.releaseBank (s : State) (b : BankId) : State :=
  (s.setBank b { s.bank b with holders := (s.bank b).holders - 1 }).judgeBank b

/-- A hold on a map is released (R84). -/
def State.releaseMap (s : State) (m : MapId) : State :=
  s.setMap m { s.map m with holders := (s.map m).holders - 1 }

/-- The context makes a segment hold its bank (R15). -/
def Context.holdsBank (x : Context) (b : BankId) : Bool := decide (x.src = .i8 ∧ x.bank = b)

/-- The context makes a segment hold its map (R84). -/
def Context.holdsMap (x : Context) (m : MapId) : Bool := decide (x.dst = .i8 ∧ x.map = m)

/-- The holds of a segment under the context are taken (R119). -/
def State.takeHolds (s : State) (x : Context) : State :=
  let s1 := if x.src = .i8 then s.holdBank x.bank else s
  if x.dst = .i8 then s1.holdMap x.map else s1

/-- The holds of a segment under the context are released (R17, R84). -/
def State.releaseHolds (s : State) (x : Context) : State :=
  let s1 := if x.dst = .i8 then s.releaseMap x.map else s
  if x.src = .i8 then s1.releaseBank x.bank else s1

/-! ## The build engine (R97 to R99) -/

/-- The number of a fault code (R124, R108). -/
def FaultCode.code : FaultCode → Nat
  | .stalled => 1 | .overrun => 2 | .aborted => 3 | .mapUnusable => 4 | .noCandidates => 5

/-- A BUILD_FAULT record (Table 6-3). -/
def buildFault (m : MapId) (f : FaultCode) : EventRecord :=
  { kind := .buildFault, cls := .urgent, source := m.code.setWidth 2, tag := 0, detail1 := f.code,
    detail2 := 0 }

/-- The map goes EMPTY from BUILDING: every cell invalid, the port told (R79, R81). -/
def State.emptyMap (s : State) (m : MapId) : State :=
  (s.setMap m { s.map m with state := .empty, cells := [] }).invalidate (.map m)

/-- The request can be started now (R97). -/
def State.startable (s : State) (r : BuildRequest) : Bool :=
  decide ((s.map r.map).holders = 0) && !s.sealedPending r.params.source

/-- The first half of a build start (R98): the request leaves the list, the map enters BUILDING with
the request's parameters and no valid cell, the port is told, the engine holds the source bank. -/
def State.enterBuilding (s : State) (r : BuildRequest) : State :=
  let s1 := { s with engine :=
    { s.engine with
      requests := s.engine.requests.filter fun q => decide (q.map ≠ r.map)
      state := .building, current := r.map, progress := 0 } }
  let s2 := s1.setMap r.map
    { s1.map r.map with state := .building, params := r.params, cells := [] }
  (s2.invalidate (.map r.map)).holdBank r.params.source

/-- The engine enters POST with a record. -/
def State.enginePosts (s : State) (r : EventRecord) : State :=
  { s with engine := { s.engine with state := .post r } }

/-- The end of a build at its start with the NO_CANDIDATES fault (R99). -/
def State.noCandidates (s : State) (m : MapId) : State :=
  (((s.emptyMap m).releaseBank (s.map m).params.source).enginePosts
    (buildFault m .noCandidates)).wakeMap m

/-- A build starts (R98), and ends at once when its eligible set is empty (R99). -/
def State.startBuild (s : State) (r : BuildRequest) : State :=
  let s1 := s.enterBuilding r
  if r.params.eligible (s1.bank r.params.source).entries = [] then s1.noCandidates r.map else s1

/-- The engine, when IDLE, starts the oldest request that can be started (R97). -/
def State.lookForBuild (s : State) : State :=
  match s.engine.state with
  | .idle =>
    match s.engine.requests.find? fun r => s.startable r with
    | some r => s.startBuild r
    | none => s
  | .building => s
  | .post _ => s

/-! ## A channel's jobs (R117, R123) and faults (R125) -/

/-- The head descriptor becomes the current job; with no descriptor the channel is IDLE (R117). -/
def Channel.nextJob (x : Channel) : Channel :=
  match x.jobs with
  | [] => { x with state := .idle }
  | j :: _ =>
    { x with state := .wait .start, segment := 0, tag := j.tag, path := PixelPath.fresh, stall := 0 }

/-- The channel after the insertion of the record it had in POST (R123). -/
def Channel.posted (x : Channel) (r : EventRecord) : Channel :=
  match r.kind with
  | .segment => { x with state := .wait .start, segment := x.segment + 1 }
  | .jobFault => { x with jobs := x.jobs.tail, state := .halted }
  | .jobDone | .buildDone | .buildFault | .commit => Channel.nextJob { x with jobs := x.jobs.tail }

/-- A JOB_FAULT record (Table 7-5). -/
def Channel.faultRecord (x : Channel) (c : Chan) (f : FaultCode) : EventRecord :=
  { kind := .jobFault, cls := .urgent, source := c.code, tag := x.tag, detail1 := f.code,
    detail2 := x.path.done }

/-- The channel after a fault of its current job, before its holds are released (R125, R154). -/
def Channel.faulted (x : Channel) (c : Chan) (f : FaultCode) : Channel :=
  { x with
    state := .post (x.faultRecord c f), lastFault := some f, inFifo := [], outFifo := [], stall := 0,
    path := { x.path with inWord := none, held := none, outWord := none } }

/-- A fault ends the channel's current job (R125). -/
def State.faultJob (s : State) (c : Chan) (f : FaultCode) : State :=
  let x := s.chan c
  let s1 := s.setChan c (x.faulted c f)
  if x.state = .run then s1.releaseHolds x.ctx else s1

end Sys2Proof.Machine
end

