-- ==== Sys2Proof/Machine/Build.lean ====
section
/-! DEFINITION. The build engine's commands (chapter 6). -/

namespace Sys2Proof.Machine

/-- The REQUEST for the map with the parameters is refused (R94). -/
def State.refusesBuild (s : State) (m : MapId) (p : MapParams) : Bool :=
  decide ((s.map m).state = .building) || s.buildPending m || !p.valid

/-- BLD_CMD REQUEST: the request joins the list, or BUILD_REFUSED is set (R94). -/
def execBldCmdRequest (s : State) : Result :=
  onBus s fun s =>
    let m := s.engine.regs.map
    let p := s.engine.regs.params
    if s.refusesBuild m p then s.flag .buildRefused
    else (s.addRequest { map := m, params := p }).lookForBuild

/-- The abort of the running build of the map (R105). -/
def State.abortBuild (s : State) (m : MapId) : State :=
  ((((s.emptyMap m).enginePosts (buildFault m .aborted))).wakeMap m).releaseBank
    (s.map m).params.source

/-- The request for the map leaves the list (R106). -/
def State.dropRequest (s : State) (m : MapId) : State :=
  { s with engine :=
    { s.engine with requests := s.engine.requests.filter fun q => decide (q.map ≠ m) } }

/-- The BUILD_FAULT record of an aborted pending request is inserted at once, or waits in the abort
slot (R106). -/
def State.slotRecord (s : State) (r : EventRecord) : State :=
  if s.eq.hasRoom r.cls then s.insertEvent r
  else { s with engine := { s.engine with abortSlot := some r } }

/-- BLD_CMD ABORT (R105 to R107). -/
def execBldCmdAbort (m : MapId) (s : State) : Result :=
  onBus s fun s =>
    if (s.map m).state = .building then s.abortBuild m
    else if s.buildPending m = true ∧ s.engine.abortSlot = none then
      ((s.dropRequest m).slotRecord (buildFault m .aborted)).wakeMap m
    else s.flag .cmdIgnored

/-- BLD_CMD with another command code: ignored with CMD_IGNORED (R107). -/
def execBldCmdIgnored (_code : BitVec 2) (s : State) : Result :=
  onBus s fun s => s.flag .cmdIgnored

/-- BUILD_START: the IDLE engine starts the oldest startable request (R97, R98); otherwise the event
does not occur (log 9, log 10). -/
def execBuildStart (s : State) : Result := .next s.lookForBuild

/-- A BUILD_DONE record (Table 6-3). -/
def buildDone (m : MapId) (mapGen bankGen : BitVec 16) : EventRecord :=
  { kind := .buildDone, cls := .routine, source := m.code.setWidth 2, tag := 0,
    detail1 := mapGen.toNat, detail2 := bankGen.toNat }

/-- A cell of the map is written valid, progress rises and the port is told (R101). -/
def State.writeCell (s : State) (m : MapId) (c : Cell) : State :=
  let s1 := s.setMap m { s.map m with cells := (s.map m).cells ++ [c] }
  State.invalidate { s1 with engine := { s1.engine with progress := s1.engine.progress + 1 } } (.map m)

/-- The completion of a build (R102): the map goes READY, the source bank is released, the engine
posts its record. -/
def State.completeBuild (s : State) (m : MapId) : State :=
  let x := s.map m
  let s1 := (s.setMap m { x with state := .ready, generation := x.generation + 1 }).wakeMap m
  (s1.releaseBank x.params.source).enginePosts
    (buildDone m (x.generation + 1) (s.bank x.params.source).generation)

/-- CELL_COMPLETION (R101, R102); with no cell in computation the event does not occur (log 9). -/
def execCellCompletion (s : State) : Result :=
  let m := s.engine.current
  let x := s.map m
  match s.engine.state with
  | .idle => .next s
  | .post _ => .next s
  | .building =>
    match x.params.searchCell (s.bank x.params.source).entries s.engine.progress with
    | none => .next s
    | some c =>
      if x.params.cellCount ≤ s.engine.progress + 1 then .next ((s.writeCell m c).completeBuild m)
      else .next (s.writeCell m c)

end Sys2Proof.Machine
end

