-- ==== Sys2Proof/Machine/PixelPath.lean ====
section
/-! DEFINITION. The pixel path (chapter 8): what the pixel step of the next pixel does to the path and
the FIFOs, as a function of the state that takes nothing, so that a tick can ask whether the step is
blocked (R126, R139), and the events that end a segment and a job (R121, R122, R153). -/

namespace Sys2Proof.Machine

/-- The number of segments of a job of `n` pixels (R118). -/
def segmentCount (segLen n : Nat) : Nat :=
  if segLen = 0 ∨ n ≤ segLen then 1 else (n + segLen - 1) / segLen

/-- The last pixel of segment `seg` (R118). -/
def segmentLast (segLen n seg : Nat) : Nat :=
  if segLen = 0 ∨ n ≤ segLen then n - 1 else min ((seg + 1) * segLen - 1) (n - 1)

/-! ## Keying and edges -/

/-- A component lies from its low bound to its high bound, or its enable is off (R142). -/
def inKeyRange (en : Bool) (lo c hi : Byte) : Bool :=
  !en || decide (lo.toNat ≤ c.toNat ∧ c.toNat ≤ hi.toNat)

/-- The entry matches the colour key: some enable is on, and every enabled component lies in its range
(R142). -/
def Context.keyed (x : Context) (e : Entry) : Bool :=
  (x.keyEnA || x.keyEnR || x.keyEnG || x.keyEnB) &&
    inKeyRange x.keyEnA x.keyLo.a e.a x.keyHi.a && inKeyRange x.keyEnR x.keyLo.r e.r x.keyHi.r &&
    inKeyRange x.keyEnG x.keyLo.g e.g x.keyHi.g && inKeyRange x.keyEnB x.keyLo.b e.b x.keyHi.b

/-- The key step: a keyed entry leaves with alpha 0 (R142). -/
def Context.keyStep (x : Context) (e : Entry) : Entry := if x.keyed e then { e with a := 0 } else e

/-- The entry that leaves the edge step, given whether its left and its right neighbour in its row
left the key step with alpha 0 (R144). -/
def Context.edgeStep (x : Context) (e : Entry) (left right : Bool) : Entry :=
  if e.a ≠ 0 ∧ (left || right) then { e with a := x.edgeAlpha } else e

/-- A pixel that leaves the edge step, with its number. -/
structure Released where
  number : Nat
  entry : Entry
deriving DecidableEq, Repr

/-- Pixel `k` of a job of `n` pixels and row width `w` ends its row or the job (R145). -/
def endsRow (w n k : Nat) : Bool := decide (k % w = w - 1 ∨ k + 1 = n)

/-- Pixel `k` has a left neighbour in its row with alpha 0: that pixel is the held one (R144, R145). -/
def leftIsClear (w k : Nat) (held : Option HeldPixel) : Bool :=
  match held with
  | none => false
  | some h => decide (k % w ≠ 0 ∧ h.entry.a = 0)

/-- The pixels the edge step releases at the step of pixel `k`, whose entry left the key step as `e`,
in order, and the pixel held after it (R144 to R146). -/
def Context.edge (x : Context) (w n k : Nat) (e : Entry) (held : Option HeldPixel) :
    List Released × Option HeldPixel :=
  if x.edgeEn then
    let before := match held with
      | none => []
      | some h =>
        [{ number := h.number, entry := x.edgeStep h.entry h.leftTransparent (decide (e.a = 0)) }]
    if endsRow w n k then
      (before ++ [{ number := k, entry := x.edgeStep e (leftIsClear w k held) false }], none)
    else
      (before, some { number := k, entry := e, leftTransparent := leftIsClear w k held })
  else ([{ number := k, entry := e }], none)

/-! ## Conversion and packing -/

/-- The pixel an entry becomes in the destination format, in the lowest bits, at its position in the
job (R149, R150). -/
def Context.convert (x : Context) (m : ReductionMap) (w : Nat) (p : Released) : Word :=
  match x.dst with
  | .a8888 => arrange x.lanes p.entry
  | .r565 => packR565 p.entry
  | .a1555 => packA1555 p.entry
  | .a4444 => packA4444 p.entry
  | .i8 => (m.reduce x.dither p.entry (p.number % w) (p.number / w)).setWidth 32

/-- The output word in progress and the words handed over so far in the step. -/
structure Packing where
  word : Option Word
  out : List Word
deriving DecidableEq, Repr

/-- A converted pixel goes into its lane; the word that its lane or the job's end completes is handed
over, with its unfilled lanes 0 (R151, R153). -/
def Packing.place (q : Packing) (f : Format) (n k : Nat) (v : Word) : Packing :=
  let w := q.word.getD 0 ||| f.inLane v (f.laneOf k)
  if f.laneOf k + 1 = f.perWord ∨ k + 1 = n then { word := none, out := q.out ++ [w] }
  else { word := some w, out := q.out }

/-- The released pixels are converted and packed in order (R149, R151). -/
def Context.pack (x : Context) (m : ReductionMap) (job : Job) (ps : List Released) (q : Packing) :
    Packing :=
  ps.foldl (fun q p => q.place x.dst job.count p.number (x.convert m job.width p)) q

/-! ## The pixel step -/

/-- The word that holds the next pixel, and the input FIFO after it: the word in hand, or the oldest
word of the FIFO (R132, R140). -/
def Channel.nextWord (x : Channel) : Option (Word × List Word) :=
  match x.path.inWord with
  | some w => some (w, x.inFifo)
  | none =>
    match x.inFifo with
    | [] => none
    | w :: rest => some (w, rest)

/-- The input word in hand after pixel `k` of a job of `n` pixels is unpacked from `w` (R140). -/
def wordAfter (f : Format) (n k : Nat) (w : Word) : Option Word :=
  if f.laneOf k + 1 = f.perWord ∨ k + 1 = n then none else some w

/-- What a pixel step leaves: the path, the input FIFO, and the words it hands over. -/
structure PixelResult where
  path : PixelPath
  inFifo : List Word
  out : List Word
deriving DecidableEq, Repr

/-- What the step of the channel's next pixel does, with the context bank's entries and the context
map as they stand (R139 to R151); none when the pixel's lane is not available. -/
def Channel.pixelWork (x : Channel) (job : Job) (bank : List (Nat × Entry)) (m : ReductionMap) :
    Option PixelResult :=
  match x.nextWord with
  | none => none
  | some (w, rest) =>
    let k := x.path.next
    let e := x.ctx.keyStep
      (expandPixel x.ctx.src bank (x.ctx.src.laneValue w (x.ctx.src.laneOf k)))
    let (released, held) := x.ctx.edge job.width job.count k e x.path.held
    let q := x.ctx.pack m job released { word := x.path.outWord, out := [] }
    some
      { path := { next := k + 1, inWord := wordAfter x.ctx.src job.count k w, held := held,
                  outWord := q.word, done := x.path.done + released.length }
        inFifo := rest
        out := q.out }

/-- The pixel step the channel can take now, in RUN with its lane available and room in the output
FIFO for every word the step hands over (R139, R151). -/
def State.pixelReady (s : State) (c : Chan) : Option (Job × PixelResult) :=
  let x := s.chan c
  match x.jobs with
  | [] => none
  | job :: _ =>
    if x.state = .run then
      match x.pixelWork job (s.bank x.ctx.bank).entries (s.map x.ctx.map) with
      | none => none
      | some r =>
        if x.outFifo.length + r.out.length ≤ Config.fifoDepth then some (job, r) else none
    else none

/-- The channel's path is blocked in RUN (R126, R139). -/
def State.blocked (s : State) (c : Chan) : Bool :=
  decide ((s.chan c).state = .run) && (s.pixelReady c).isNone

/-- The channel with a pixel step's result; the stall timer returns to 0 when the path takes a word
(R126). -/
def Channel.withStep (x : Channel) (r : PixelResult) : Channel :=
  { x with path := r.path, inFifo := r.inFifo, outFifo := x.outFifo ++ r.out,
           stall := if x.path.inWord = none then 0 else x.stall }

/-- A JOB_DONE record (Table 7-5). -/
def Channel.doneRecord (x : Channel) (c : Chan) (job : Job) : EventRecord :=
  { kind := .jobDone, cls := if job.urgent then .urgent else .routine, source := c.code, tag := x.tag,
    detail1 := job.count, detail2 := segmentCount x.ctx.segLen.toNat job.count % 4096 }

/-- A SEGMENT record, with the generation of the bank the segment used (Table 7-5). -/
def Channel.segmentRecord (x : Channel) (c : Chan) (gen : BitVec 16) : EventRecord :=
  { kind := .segment, cls := .routine, source := c.code, tag := x.tag,
    detail1 := x.segment % 4096, detail2 := if x.ctx.src = .i8 then gen.toNat else 0 }

/-- The channel at its job's end (R122). -/
def Channel.jobEnded (x : Channel) (c : Chan) (job : Job) : Channel :=
  { x with state := .post (x.doneRecord c job), stall := 0 }

/-- The channel at the end of a segment that is not the last (R121, R136). -/
def Channel.segmentEnded (x : Channel) (c : Chan) (job : Job) (gen : BitVec 16) : Channel :=
  if job.segNotify then { x with state := .post (x.segmentRecord c gen), stall := 0 }
  else { x with state := .wait .start, stall := 0, segment := x.segment + 1 }

/-- The pixel step of a channel with its result `r`: the last pixel of the job ends the job, the last
of a segment ends the segment, and either releases the holds (R121, R122, R153). -/
def State.takePixel (s : State) (c : Chan) (job : Job) (r : PixelResult) : State :=
  let x := (s.chan c).withStep r
  let k := (s.chan c).path.next
  if k + 1 = job.count then
    ((s.setChan c (x.jobEnded c job)).releaseHolds x.ctx).lookForBuild
  else if k = segmentLast x.ctx.segLen.toNat job.count x.segment then
    ((s.setChan c (x.segmentEnded c job (s.bank x.ctx.bank).generation)).releaseHolds
      x.ctx).lookForBuild
  else s.setChan c x

end Sys2Proof.Machine
end

