-- ==== Sys2Proof/Machine/ChannelOps.lean ====
section
/-! DEFINITION. The conversion channels' commands (chapters 7 and 8). -/

namespace Sys2Proof.Machine

/-- CTX_WRITE: accepted in IDLE and HALTED with defined format codes, otherwise refused (R112). -/
def execCtxWrite (c : Chan) (r : CtxReg) (v : Word) (s : State) : Result :=
  onBus s fun s =>
    if (s.chan c).state.hasJob then s.flag .settingRefused
    else
      match (s.chan c).ctx.withReg r v with
      | none => s.flag .settingRefused
      | some x => s.setChan c { s.chan c with ctx := x }

/-- The channel with a descriptor appended; in IDLE it becomes current in the same event (R114). -/
def Channel.push (x : Channel) (j : Job) : Channel :=
  let y := { x with jobs := x.jobs ++ [j] }
  if x.state = .idle then y.nextJob else y

/-- JOB_PUSH: the descriptor joins the job queue, or JOB_REFUSED is set (R114). -/
def execJobPush (c : Chan) (v : Word) (s : State) : Result :=
  onBus s fun s =>
    let x := s.chan c
    let j := jobOf x.jobCount x.jobWidth v
    if j.valid = true ∧ x.jobs.length < Config.maxJobs then s.setChan c (x.push j)
    else s.flag .jobRefused

/-- The context bank keeps the segment back (Table 7-4, first row). -/
def State.bankHoldsBack (s : State) (x : Context) : Bool :=
  decide (x.src = .i8) && s.sealedPending x.bank

/-- The context map keeps the segment back (Table 7-4, second row). -/
def State.mapHoldsBack (s : State) (x : Context) : Bool :=
  decide (x.dst = .i8) && (decide ((s.map x.map).state = .building) || s.buildPending x.map)

/-- The context map is EMPTY, or STALE with accept-stale off (Table 7-4, third row). -/
def State.mapUnusable (s : State) (x : Context) : Bool :=
  decide (x.dst = .i8 ∧ ((s.map x.map).state = .empty ∨
    (s.map x.map).state = .stale ∧ x.acceptStale = false))

/-- The attempt to start the channel's segment, the rows of Table 7-4 in order (R119). -/
def State.attemptSegment (s : State) (c : Chan) : State :=
  let x := s.chan c
  if s.bankHoldsBack x.ctx then s.setChan c { x with state := .wait .bankCommit }
  else if s.mapHoldsBack x.ctx then s.setChan c { x with state := .wait .mapBusy }
  else if s.mapUnusable x.ctx then s.faultJob c .mapUnusable
  else (s.setChan c { x with state := .run, stall := 0 }).takeHolds x.ctx

/-- SEGMENT_START_ATTEMPT (R119, R120); with no attempt due the event does not occur (log 9). -/
def execSegmentStartAttempt (c : Chan) (s : State) : Result :=
  if (s.chan c).state = .wait .start then .next (s.attemptSegment c) else .next s

/-- PIXEL_STEP (R139); a step that is blocked or of a channel not in RUN does not occur (log 9). -/
def execPixelStep (c : Chan) (s : State) : Result :=
  match s.pixelReady c with
  | some (job, r) => .next (s.takePixel c job r)
  | none => .next s

/-- The channel can take input words: a job is current or a descriptor waits (R131). -/
def Channel.takesInput (x : Channel) : Bool := x.state.hasJob || decide (x.jobs ≠ [])

/-- The channel is in WAIT or RUN. -/
def ChanState.working : ChanState → Bool
  | .wait _ | .run => true
  | .idle | .post _ | .halted => false

/-- CH_IN write: the word is accepted, or faults the job with OVERRUN, or is dropped (R127, R131). -/
def execChIn (c : Chan) (v : Word) (s : State) : Result :=
  onBus s fun s =>
    let x := s.chan c
    if x.inFifo.length < Config.fifoDepth then
      if x.takesInput then s.setChan c { x with inFifo := x.inFifo ++ [v] } else s.flag .inputDropped
    else if x.state.working then (s.faultJob c .overrun).lookForBuild
    else s.flag .inputDropped

/-- CH_OUT read: the oldest output word, or 0 with OUTPUT_EMPTY (R133). -/
def execChOut (c : Chan) (s : State) : Result :=
  onBus s fun s =>
    let x := s.chan c
    match x.outFifo with
    | [] => (s.flag .outputEmpty).returns 0
    | w :: rest =>
      (s.setChan c { x with outFifo := rest, stall := if x.state = .run then 0 else x.stall }).returns w

/-- CH_CMD ABORT: in WAIT and RUN the job ends with fault ABORTED, otherwise CMD_IGNORED (R129). -/
def execChCmdAbort (c : Chan) (s : State) : Result :=
  onBus s fun s =>
    if (s.chan c).state.working then (s.faultJob c .aborted).lookForBuild else s.flag .cmdIgnored

/-- CH_CMD RESUME: HALTED returns to IDLE and the head descriptor becomes current, otherwise
CMD_IGNORED (R130). -/
def execChCmdResume (c : Chan) (s : State) : Result :=
  onBus s fun s =>
    if (s.chan c).state = .halted then s.setChan c (s.chan c).nextJob else s.flag .cmdIgnored

/-- A channel after a channel reset: the context, JOB_COUNT and JOB_WIDTH are kept (R134). -/
def Channel.chanReset (x : Channel) : Channel :=
  { Channel.reset with ctx := x.ctx, jobCount := x.jobCount, jobWidth := x.jobWidth }

/-- CH_CMD RESET: the channel reset; in RUN its holds are released (R134, R35, R92). -/
def execChCmdReset (c : Chan) (s : State) : Result :=
  onBus s fun s =>
    let x := s.chan c
    let s1 := s.setChan c x.chanReset
    if x.state = .run then (s1.releaseHolds x.ctx).lookForBuild else s1

/-- CH_CMD with another command code: ignored with CMD_IGNORED (R135). -/
def execChCmdIgnored (_c : Chan) (_code : BitVec 2) (s : State) : Result :=
  onBus s fun s => s.flag .cmdIgnored

end Sys2Proof.Machine
end

