-- ==== Sys2Proof/Machine/EventQueue.lean ====
section
/-! DEFINITION. The event queue's commands (chapter 10): reading, claiming and removing records,
EQ_CTRL, and the insertion arbiter. -/

namespace Sys2Proof.Machine

/-- The code of a record kind; 0 is NONE (Table 11-7). -/
def EventKind.code : EventKind → Nat
  | .jobDone => 1 | .jobFault => 2 | .segment => 3 | .buildDone => 4 | .buildFault => 5 | .commit => 6

/-- Word 0 of a record (Table 11-7); with no record every field is 0, which is kind NONE (R162). -/
def recordWord0 (r : Option StampedRecord) : Word :=
  match r with
  | none => 0
  | some r =>
    putAt r.stamp 16 ||| putAt r.record.tag 8 ||| putAt r.record.source 4 |||
      putBit (decide (r.record.cls = .urgent)) 3 ||| putNat 3 r.record.kind.code 0

/-- Word 1 of a record (Table 11-8, with the detail fields of Table 10-2). -/
def recordWord1 (r : Option StampedRecord) : Word :=
  match r with
  | none => 0
  | some r =>
    match r.record.kind with
    | .jobDone => putNat 12 r.record.detail2 20 ||| putNat 20 r.record.detail1 0
    | .jobFault => putNat 3 r.record.detail1 20 ||| putNat 20 r.record.detail2 0
    | .segment => putNat 12 r.record.detail1 16 ||| putNat 16 r.record.detail2 0
    | .buildDone => putNat 16 r.record.detail2 16 ||| putNat 16 r.record.detail1 0
    | .buildFault => putNat 3 r.record.detail1 0
    | .commit => putNat 16 r.record.detail2 16 ||| putNat 16 r.record.detail1 0

/-- `s` with its event queue replaced. -/
def State.withEq (s : State) (q : EventQueue) : State := { s with eq := q }

/-- EQ_HEAD0 read: the presented record is claimed if no claim exists, and its word 0 returned
(R166). -/
def execEqHead0 (s : State) : Result :=
  onBus s fun s => (s.withEq s.eq.claimFront).returns (recordWord0 s.eq.claimFront.claimed)

/-- EQ_HEAD1 read: as EQ_HEAD0, with word 1 (R166). -/
def execEqHead1 (s : State) : Result :=
  onBus s fun s => (s.withEq s.eq.claimFront).returns (recordWord1 s.eq.claimFront.claimed)

/-- EQ_NEXT read: the claimed record is removed, then the record now presented is claimed and its word
0 returned (R168). -/
def execEqNext (s : State) : Result :=
  onBus s fun s =>
    let q := s.eq.removeClaimed.claimFront
    (s.withEq q).returns (recordWord0 q.claimed)

/-- EQ_POP write: the claimed record is removed, or POP_NO_CLAIM is set; the written value is not used
(R167). -/
def execEqPop (_v : Word) (s : State) : Result :=
  onBus s fun s =>
    if s.eq.claim = none then s.flag .popNoClaim else s.withEq s.eq.removeClaimed

/-- EQ_CTRL write: a threshold of 0 or above 24 is refused (R172). -/
def execEqCtrl (v : Word) (s : State) : Result :=
  onBus s fun s =>
    if fieldAt v 0 5 = 0 ∨ Config.maxRoutine < (fieldAt v 0 5).toNat then s.flag .settingRefused
    else s.withEq { s.eq with threshold := fieldAt v 0 5, timeout := fieldAt v 8 8 }

/-! ## The insertion arbiter (R169) -/

/-- The posters of the arbiter. -/
inductive Poster where
  | enginePost (r : EventRecord)
  | abortSlot (r : EventRecord)
  | channel (c : Chan) (r : EventRecord)
  | deferred (b : BankId)
deriving DecidableEq, Repr

/-- The channels in rotation, beginning after the one last served (R169). -/
def rotation (last : Chan) : List Chan :=
  match last with
  | .ch0 => [.ch1, .ch2, .ch0]
  | .ch1 => [.ch2, .ch0, .ch1]
  | .ch2 => [.ch0, .ch1, .ch2]

/-- The engine in POST as a poster. -/
def State.enginePoster (s : State) : List Poster :=
  match s.engine.state with
  | .post r => [.enginePost r]
  | .idle => []
  | .building => []

/-- The occupied abort slot as a poster. -/
def State.slotPoster (s : State) : List Poster :=
  match s.engine.abortSlot with
  | some r => [.abortSlot r]
  | none => []

/-- A channel in POST as a poster. -/
def State.chanPoster (s : State) (c : Chan) : List Poster :=
  match (s.chan c).state with
  | .post r => [.channel c r]
  | .idle => []
  | .wait _ => []
  | .run => []
  | .halted => []

/-- A DEFERRED bank as a poster. -/
def State.bankPoster (s : State) (b : BankId) : List Poster :=
  if s.commitOf b = .deferred then [.deferred b] else []

/-- The waiting posters in the order of R169. -/
def State.posters (s : State) : List Poster :=
  s.enginePoster ++ s.slotPoster ++ (rotation s.eq.lastServed).flatMap s.chanPoster ++
    [BankId.b0, .b1, .b2, .b3].flatMap s.bankPoster

/-- The class of the record a poster waits to insert; a deferred commit's is ROUTINE (R56). -/
def Poster.cls : Poster → EventClass
  | .enginePost r => r.cls
  | .abortSlot r => r.cls
  | .channel _ r => r.cls
  | .deferred _ => .routine

/-- The poster is served: its record is inserted and its own rule acts in the same event (R56, R104,
R106, R123, R169). -/
def State.serve (s : State) (p : Poster) : State :=
  match p with
  | .enginePost r =>
    let s1 := s.insertEvent r
    State.lookForBuild
      { s1 with engine := { s1.engine with state := .idle, current := .m0, progress := 0 } }
  | .abortSlot r =>
    let s1 := s.insertEvent r
    { s1 with engine := { s1.engine with abortSlot := none } }
  | .channel c r =>
    let s1 := (s.insertEvent r).setChan c ((s.chan c).posted r)
    { s1 with eq := { s1.eq with lastServed := c } }
  | .deferred b => (s.commit b).lookForBuild

/-- INSERTION_EVENT: the first waiting poster whose record's class fits is served (R169); with none,
the event does not occur (log 9). -/
def execInsertionEvent (s : State) : Result :=
  match s.posters.find? fun p => s.eq.hasRoom p.cls with
  | some p => .next (s.serve p)
  | none => .next s

end Sys2Proof.Machine
end

