-- ==== Sys2Proof/Machine/Port.lean ====
section
/-! DEFINITION. The table access port's commands (chapter 4). -/

namespace Sys2Proof.Machine

/-- `s` with the port replaced. -/
def State.withPort (s : State) (p : AccessPort) : State := { s with port := p }

/-- AP_ADDR write: an accepted address discards every item and begins a fill (R60). -/
def execApAddr (v : Word) (s : State) : Result :=
  onBus s fun s =>
    match apAddress v with
    | none => s.flag .accessRefused
    | some (t, i) =>
      s.withPort { target := t, index := i, items := [], filling := true, stretched := false }

/-- AP_DATA read: the item for the current index is returned at once, or the read is stretched and a
fill is in progress (R64, R67). -/
def execApDataRead (s : State) : Result :=
  onBus s fun s =>
    match s.port.items with
    | x :: _ => (s.withPort s.port.advance).returns x
    | [] => s.withPort { s.port with filling := true, stretched := true }

/-- A direct write to the bank is accepted (R26). -/
def State.acceptsWrite (s : State) (b : BankId) : Bool :=
  decide ((s.bank b).holders = 0) && !s.hasRole b && !s.sealedPending b

/-- The effect of an accepted direct write on the bank and its neighbours (R27). -/
def State.directWrite (s : State) (b : BankId) (i : Nat) (e : Entry) : State :=
  (s.setBank b { s.bank b with
    entries := Palette.write (s.bank b).entries i e
    generation := (s.bank b).generation + 1 }).notice b

/-- AP_DATA write: a direct write to a bank, accepted or refused by R26, or a refused write to a map;
the index advances either way (R61, R69, R70). -/
def execApDataWrite (v : Word) (s : State) : Result :=
  onBus s fun s =>
    match s.port.target with
    | .bank b =>
      if s.acceptsWrite b then
        let s1 := s.directWrite b s.port.index (Entry.ofWord v)
        (s1.withPort s1.port.advance).lookForBuild
      else (s.withPort s.port.advance).flag .accessRefused
    | .map _ => (s.withPort s.port.advance).flag .accessRefused

/-- The position the fetch in flight of a fill is for: the first one without an item (R63). -/
def AccessPort.fetchPosition (p : AccessPort) : Nat :=
  match p.items with
  | [] => p.index
  | _ :: _ => p.target.after p.index

/-- FETCH_COMPLETION: the item of the fetch in flight is taken from the target and becomes present
(R63); when it is the one a stretched read waits for, the read returns it and the index advances
(R67). With no fetch in flight the event does not occur (log 9). -/
def execFetchCompletion (s : State) : Result :=
  let x := s.item s.port.target s.port.fetchPosition
  if s.port.filling = false then .next s
  else if s.port.stretched = true ∧ s.port.items = [] then
    .next ((s.withPort { s.port.advance with stretched := false }).returns x)
  else
    .next (s.withPort { s.port with
      items := s.port.items ++ [x], filling := decide (s.port.items = []) })

end Sys2Proof.Machine
end

