-- ==== Sys2Proof/Machine/ScanoutPort.lean ====
section
/-! DEFINITION. The scanout port's commands (chapter 9). -/

namespace Sys2Proof.Machine

/-- SCN_CTRL write: the next display bank (R157). -/
def execScnCtrl (v : Word) (s : State) : Result :=
  onBus s fun s => { s with scanout := { s.scanout with next := BankId.ofCode (fieldAt v 0 2) } }

/-- The answer of a lookup (R160). -/
def State.lookupWord (s : State) (i : Byte) : Word :=
  match s.scanout.state with
  | .on => (Palette.read (s.bank s.scanout.current).entries i.toNat).toWord
  | .off => Entry.zero.toWord
  | .armed => Entry.zero.toWord

/-- LOOKUP: the entry word leaves on the lookup path; nothing else changes (R160). -/
def execLookup (i : Byte) (s : State) : Result :=
  .next { s with bus := { s.bus with lookupData := s.lookupWord i } }

/-- A bank that gains the display role in DEFERRED leaves the arbiter and becomes PENDING (R51). -/
def State.gainRole (s : State) (b : BankId) : State :=
  if s.commitOf b = .deferred then s.setCommit b .pending else s

/-- The unit is ON with the next display bank as the current one (R158 step 1). -/
def State.showNext (s : State) : State :=
  State.gainRole { s with scanout := { s.scanout with state := .on, current := s.scanout.next } }
    s.scanout.next

/-- The frame counter advances (R155, R158). -/
def State.countFrame (s : State) : State :=
  { s with scanout := { s.scanout with frame := s.scanout.frame + 1 } }

/-- FRAME_START, in the order of R158: the counter, the role, the outgoing bank, the display bank. -/
def execFrameStart (s : State) : Result :=
  let s1 := s.countFrame
  match s.scanout.state with
  | .off => .next s1
  | .armed => .next ((s1.showNext.judgeDisplay s.scanout.next).lookForBuild)
  | .on =>
    if s.scanout.next = s.scanout.current then
      .next ((s1.judgeDisplay s.scanout.current).lookForBuild)
    else
      .next (((s1.showNext.judgeBank s.scanout.current).judgeDisplay s.scanout.next).lookForBuild)

end Sys2Proof.Machine
end

