-- ==== Sys2Proof/Machine/Staging.lean ====
section
/-! DEFINITION. The update queue's commands (chapter 3): staging, sealing, discarding. -/

namespace Sys2Proof.Machine

/-- `s` with the update records replaced. -/
def State.withRecords (s : State) (l : List UpdateRecord) : State :=
  { s with uq := { s.uq with records := l } }

/-- The records without the OPEN one (R40). -/
def UpdateQueue.withoutOpen (q : UpdateQueue) : List UpdateRecord :=
  q.records.filter fun r => decide (r.state ≠ .opened)

/-- The header is refused on its fields or on the capacity in use (R39). -/
def UpdateQueue.refusesHeader (q : UpdateQueue) (h : StgHeader) : Bool :=
  decide (h.count = 0 ∨ 8 < h.count ∨ 255 < h.start.toNat + h.count - 1 ∨
    Config.maxRecords ≤ q.recordCount ∨ Config.maxColourWords < q.wordCount + h.count)

/-- The OPEN record a header opens (R39). -/
def StgHeader.record (h : StgHeader) : UpdateRecord :=
  { bank := h.bank, start := h.start, count := h.count, colours := [], state := .opened,
    notify := false }

/-- A header judged while no record is OPEN (R39). -/
def State.openRecord (s : State) (h : StgHeader) : State :=
  if s.uq.refusesHeader h then s.flag .stageRefused else s.withRecords (s.uq.records ++ [h.record])

/-- STG_HDR write: an OPEN record is first discarded with STAGE_REFUSED (R40), then the header is
judged (R39). -/
def execStgHdr (v : Word) (s : State) : Result :=
  onBus s fun s =>
    if s.uq.openRecord = none then s.openRecord (StgHeader.ofWord v)
    else ((s.withRecords s.uq.withoutOpen).flag .stageRefused).openRecord (StgHeader.ofWord v)

/-- An OPEN record with one more colour, CLOSED when the colour fills it; other records as they are
(R41). -/
def UpdateRecord.append (r : UpdateRecord) (e : Entry) : UpdateRecord :=
  if r.state = .opened then
    { r with colours := r.colours ++ [e],
             state := if r.colours.length + 1 = r.count then .closed else .opened }
  else r

/-- STG_DATA write: one colour for the OPEN record, or STAGE_REFUSED (R41). -/
def execStgData (v : Word) (s : State) : Result :=
  onBus s fun s =>
    if s.uq.openRecord = none then s.flag .stageRefused
    else s.withRecords (s.uq.records.map fun r => r.append (Entry.ofWord v))

/-- The record is CLOSED and of the bank. -/
def UpdateRecord.closedFor (r : UpdateRecord) (b : BankId) : Bool :=
  decide (r.bank = b ∧ r.state = .closed)

/-- A CLOSED record of the bank becomes SEALED with the SEAL's notify value (R43). -/
def UpdateRecord.seal (r : UpdateRecord) (b : BankId) (notify : Bool) : UpdateRecord :=
  if r.closedFor b then { r with state := .sealed, notify := notify } else r

/-- The bank's commit state after a SEAL that sealed records: NONE becomes PENDING, PENDING and
DEFERRED stay (R43, R48, R56). -/
def CommitState.sealing : CommitState → CommitState
  | .none => .pending
  | .pending => .pending
  | .deferred => .deferred

/-- STG_CMD SEAL: every CLOSED record of the bank becomes SEALED, and the bank may reach its commit
point in the same event (R43, R44). -/
def execStgCmdSeal (b : BankId) (notify : Bool) (s : State) : Result :=
  onBus s fun s =>
    if s.uq.records.any fun r => r.closedFor b then
      (((s.withRecords (s.uq.records.map fun r => r.seal b notify)).setCommit b
        (s.commitOf b).sealing).judgeBank b).lookForBuild
    else s

/-- STG_CMD DISCARD: every OPEN and CLOSED record of the bank leaves the queue (R46). -/
def execStgCmdDiscard (b : BankId) (s : State) : Result :=
  onBus s fun s =>
    s.withRecords (s.uq.records.filter fun r => decide (r.bank ≠ b ∨ r.state = .sealed))

/-- STG_CMD with another command code: ignored with CMD_IGNORED (R47). -/
def execStgCmdIgnored (_code : BitVec 2) (s : State) : Result :=
  onBus s fun s => s.flag .cmdIgnored

end Sys2Proof.Machine
end

