-- ==== Sys2Proof/Machine/Timebase.lean ====
section
/-! DEFINITION. Ticks (R182): what a tick does to the coalescing timer (R173) and to the channels'
stall timers (R126), with the fault and the flag it may bring about in the same event. -/

namespace Sys2Proof.Machine

/-- The coalescing timer runs: ROUTINE records stand in the queue, the timeout is above 0 and the
overdue flag is clear (R173). -/
def EventQueue.coalescing (q : EventQueue) : Bool :=
  decide (q.routine ≠ [] ∧ q.timeout ≠ 0 ∧ q.overdue = false)

/-- A tick at the coalescing timer (R173). -/
def EventQueue.tick (q : EventQueue) : EventQueue :=
  if q.coalescing then
    { q with timer := q.timer + 1, overdue := decide (q.timeout.toNat ≤ q.timer + 1) }
  else q

/-- The stall timer of the channel runs: its path is blocked in RUN and its stall limit is above 0
(R126). -/
def State.stalling (s : State) (c : Chan) : Bool :=
  s.blocked c && decide ((s.chan c).ctx.stallLimit ≠ 0)

/-- The next tick brings the channel's stall timer to its limit (R126). -/
def State.expiring (s : State) (c : Chan) : Bool :=
  s.stalling c && decide ((s.chan c).ctx.stallLimit.toNat ≤ (s.chan c).stall + 1)

/-- A tick at a channel's stall timer: it advances while the path is blocked, and at the limit the job
ends with fault STALLED in the same event (R126). -/
def State.stallTick (s : State) (c : Chan) : State :=
  if s.expiring c then s.faultJob c .stalled
  else if s.stalling c then s.setChan c { s.chan c with stall := (s.chan c).stall + 1 }
  else s

/-- The six orders of the three channels. -/
def chanOrder (n : Fin 6) : List Chan :=
  if n = 0 then [.ch0, .ch1, .ch2] else if n = 1 then [.ch0, .ch2, .ch1]
  else if n = 2 then [.ch1, .ch0, .ch2] else if n = 3 then [.ch1, .ch2, .ch0]
  else if n = 4 then [.ch2, .ch0, .ch1] else [.ch2, .ch1, .ch0]

/-- At least two channels' stall timers expire at the next tick. -/
def State.manyExpire (s : State) : Bool :=
  (s.expiring .ch0 && s.expiring .ch1) || (s.expiring .ch0 && s.expiring .ch2) ||
    (s.expiring .ch1 && s.expiring .ch2)

/-- A tick at the stall timers of the channels, in the given order. -/
def State.stallTicks (s : State) (l : List Chan) : State := l.foldl State.stallTick s

/-- The tick at all stall timers. When two or more expire, the order of their expiries is free
(log 7); otherwise the order makes no difference. -/
def State.tickChannels (s : State) : State :=
  if s.manyExpire then
    State.stallTicks { s with freeCount := s.freeCount + 1 }
      (chanOrder (Config.expiryOrder s.freeCount))
  else s.stallTicks [.ch0, .ch1, .ch2]

/-- A tick: the timebase's count starts again, the coalescing timer and every stall timer take it, and
the engine looks for a build that a release has made startable (R182, R173, R126, R97). The coalescing
timer comes first, so that a ROUTINE count that rises from 0 within the tick leaves it 0 (R173). -/
def State.tick (s : State) : State :=
  let s1 := { s with timebase := { s.timebase with count := 0 }, eq := s.eq.tick }
  s1.tickChannels.lookForBuild

/-- One cycle of the engine clock: every TICK_DIVth gives a tick (R182). -/
def State.clockCycle (s : State) : State :=
  if s.timebase.div.toNat ≤ s.timebase.count + 1 then s.tick
  else { s with timebase := { s.timebase with count := s.timebase.count + 1 } }

/-- TICK (R182). -/
def execTick (s : State) : Result := .next s.tick

/-- STALLED: the part of a tick that brings the channel's stall timer to its limit (R126). When the
next tick does not bring it there, the event does not occur (log 9). -/
def execStalled (c : Chan) (s : State) : Result :=
  .next (if s.expiring c then (s.faultJob c .stalled).lookForBuild else s)

/-- OVERDUE: the part of a tick that brings the coalescing timer to its timeout or above (R173). When
the next tick does not bring it there, the event does not occur (log 9). -/
def execOverdue (s : State) : Result :=
  .next (if s.eq.tick.overdue = true ∧ s.eq.overdue = false then { s with eq := s.eq.tick } else s)

end Sys2Proof.Machine
end

