-- ==== Sys2Proof/Machine/Window.lean ====
section
/-! DEFINITION. Resets, the ENG_CTRL write, the host-fault flags and the accesses the window answers
itself (chapter 11). -/

namespace Sys2Proof.Machine

/-- A bank at a soft reset: entries and generation are kept, the holds are dropped (R34). -/
def Bank.softReset (x : Bank) : Bank := { x with holders := 0 }

/-- A map at a soft reset: it goes EMPTY and keeps its generation (R92). -/
def ReductionMap.softReset (x : ReductionMap) : ReductionMap :=
  { ReductionMap.reset with generation := x.generation }

/-- The event queue at a soft reset: emptied, with the threshold and the timeout kept (R175). -/
def EventQueue.softReset (q : EventQueue) : EventQueue :=
  { EventQueue.reset with threshold := q.threshold, timeout := q.timeout }

/-- The soft reset of the part (R180): the scanout unit, the interrupt enables, TICK_DIV and the
timebase's progress are kept. -/
def State.softReset (s : State) : State :=
  { s with
    banks := { b0 := s.banks.b0.softReset, b1 := s.banks.b1.softReset, b2 := s.banks.b2.softReset,
               b3 := s.banks.b3.softReset }
    uq := UpdateQueue.reset
    port := AccessPort.reset
    maps := { m0 := s.maps.m0.softReset, m1 := s.maps.m1.softReset }
    engine := BuildEngine.reset
    channels := { ch0 := Channel.reset, ch1 := Channel.reset, ch2 := Channel.reset }
    eq := s.eq.softReset
    hostFaults := 0 }

/-- The full reset: every piece of state takes its value after full reset (R181). The queue of waiting
commands is the senders', not the part's, and stays. -/
def State.fullReset (s : State) : State := { State.reset with pending := s.pending }

/-- The scanout enable field written set: OFF goes to ARMED (R156). -/
def State.enableScanout (s : State) : State :=
  match s.scanout.state with
  | .off => { s with scanout := { s.scanout with state := .armed } }
  | .armed => s
  | .on => s

/-- The scanout enable field written clear: the unit goes OFF, and the bank that loses the role is
judged as a non-display bank (R156, R51). -/
def State.disableScanout (s : State) : State :=
  match s.scanout.state with
  | .off => s
  | .armed => { s with scanout := { s.scanout with state := .off } }
  | .on =>
    ((State.judgeBank { s with scanout := { s.scanout with state := .off } }
      s.scanout.current)).lookForBuild

/-- A write of ENG_CTRL, one event in the order of R179: the soft reset, the enables, the scanout
enable. -/
def State.writeEngCtrl (s : State) (reset scanoutEn : Bool) (en : IrqEnables) : State :=
  let s1 := if reset then s.softReset else s
  let s2 := { s1 with enables := en }
  if scanoutEn then s2.enableScanout else s2.disableScanout

/-- FULL_RESET (R181). A stretched read ends and returns 0 (R67). -/
def execFullReset (s : State) : Result := .next s.fullReset

/-- SOFT_RESET: the ENG_CTRL write with the soft-reset field 1 (R179, R180). -/
def execSoftReset (scanoutEn : Bool) (en : IrqEnables) (s : State) : Result :=
  onBus s fun s => s.writeEngCtrl true scanoutEn en

/-- SCANOUT_ENABLE: the ENG_CTRL write with the scanout enable 1 (R156, R179). -/
def execScanoutEnable (reset : Bool) (en : IrqEnables) (s : State) : Result :=
  onBus s fun s => s.writeEngCtrl reset true en

/-- SCANOUT_DISABLE: the ENG_CTRL write with the scanout enable 0 (R156, R179). -/
def execScanoutDisable (reset : Bool) (en : IrqEnables) (s : State) : Result :=
  onBus s fun s => s.writeEngCtrl reset false en

/-- INTERRUPT_ENABLES: the ENG_CTRL write, named for the enables it sets (R171, R179). -/
def execInterruptEnables (reset scanoutEn : Bool) (en : IrqEnables) (s : State) : Result :=
  onBus s fun s => s.writeEngCtrl reset scanoutEn en

/-- An access that reaches no block: BAD_ACCESS is set, and a read returns 0 (R176, R177). -/
def State.badAccess (s : State) (write : Bool) : State :=
  if write then s.flag .badAccess else (s.flag .badAccess).returns 0

/-- INVALID_ACCESS (R176): wrong width, unaligned, or at an offset no register occupies. -/
def execInvalidAccess (write : Bool) (width offset : Nat) (s : State) : Result :=
  onBus s fun s => if accessReg width offset = none then s.badAccess write else s

/-- WRONG_TYPE_ACCESS (R177): a read of a W register or a write to an R register. -/
def execWrongTypeAccess (write : Bool) (r : Reg) (s : State) : Result :=
  onBus s fun s =>
    if (if write then r.writable else r.readable) = false then s.badAccess write else s

/-- The write of a register without a row of its own replaces the values it holds (R93, R113). -/
def State.writePlain (s : State) (r : PlainReg) (v : Word) : State :=
  match r with
  | .bldReq0 => { s with engine := { s.engine with regs := s.engine.regs.withReq0 v } }
  | .bldReq1 => { s with engine := { s.engine with regs := s.engine.regs.withReq1 v } }
  | .jobCount c => s.setChan c { s.chan c with jobCount := fieldAt v 0 20 }
  | .jobWidth c => s.setChan c { s.chan c with jobWidth := fieldAt v 0 13 }

/-- REGISTER_WRITE (R93, R113, R177). -/
def execRegisterWrite (r : PlainReg) (v : Word) (s : State) : Result :=
  onBus s fun s => s.writePlain r v

/-- HOST_FAULTS write: each flag whose bit is written as 1 is cleared (R178). -/
def execHostFaults (v : Word) (s : State) : Result :=
  onBus s fun s => { s with hostFaults := s.hostFaults &&& ~~~(fieldAt v 0 10) }

/-- TICK_DIV write: 0 is refused; an accepted write sets the divider and restarts the count (R182). -/
def execTickDiv (v : Word) (s : State) : Result :=
  onBus s fun s =>
    if fieldAt v 0 16 = 0 then s.flag .settingRefused
    else { s with timebase := { div := fieldAt v 0 16, count := 0 } }

end Sys2Proof.Machine
end

