-- ==== Sys2Proof/Machine/Dispatch.lean ====
section
/-! DEFINITION. One arm for each command of the table, in the table's order. -/

namespace Sys2Proof.Machine

/-- The effect of a command on everything but the queue. -/
def exec (i : Instr) (s : State) : Host.Outcome State Fault Refusal :=
  match i with
  | .fullReset => Sys2Proof.Machine.execFullReset s
  | .frameStart => Sys2Proof.Machine.execFrameStart s
  | .lookup index => Sys2Proof.Machine.execLookup index s
  | .tick => Sys2Proof.Machine.execTick s
  | .stalled c => Sys2Proof.Machine.execStalled c s
  | .overdue => Sys2Proof.Machine.execOverdue s
  | .invalidAccess write width offset => Sys2Proof.Machine.execInvalidAccess write width offset s
  | .wrongTypeAccess write r => Sys2Proof.Machine.execWrongTypeAccess write r s
  | .registerWrite r v => Sys2Proof.Machine.execRegisterWrite r v s
  | .softReset scanoutEn en => Sys2Proof.Machine.execSoftReset scanoutEn en s
  | .scanoutEnable reset en => Sys2Proof.Machine.execScanoutEnable reset en s
  | .scanoutDisable reset en => Sys2Proof.Machine.execScanoutDisable reset en s
  | .interruptEnables reset scanoutEn en => Sys2Proof.Machine.execInterruptEnables reset scanoutEn en s
  | .hostFaults v => Sys2Proof.Machine.execHostFaults v s
  | .tickDiv v => Sys2Proof.Machine.execTickDiv v s
  | .eqHead0 => Sys2Proof.Machine.execEqHead0 s
  | .eqHead1 => Sys2Proof.Machine.execEqHead1 s
  | .eqNext => Sys2Proof.Machine.execEqNext s
  | .eqPop v => Sys2Proof.Machine.execEqPop v s
  | .eqCtrl v => Sys2Proof.Machine.execEqCtrl v s
  | .insertionEvent => Sys2Proof.Machine.execInsertionEvent s
  | .stgHdr v => Sys2Proof.Machine.execStgHdr v s
  | .stgData v => Sys2Proof.Machine.execStgData v s
  | .stgCmdSeal b notify => Sys2Proof.Machine.execStgCmdSeal b notify s
  | .stgCmdDiscard b => Sys2Proof.Machine.execStgCmdDiscard b s
  | .stgCmdIgnored code => Sys2Proof.Machine.execStgCmdIgnored code s
  | .apAddr v => Sys2Proof.Machine.execApAddr v s
  | .apDataRead => Sys2Proof.Machine.execApDataRead s
  | .apDataWrite v => Sys2Proof.Machine.execApDataWrite v s
  | .fetchCompletion => Sys2Proof.Machine.execFetchCompletion s
  | .scnCtrl v => Sys2Proof.Machine.execScnCtrl v s
  | .bldCmdRequest => Sys2Proof.Machine.execBldCmdRequest s
  | .bldCmdAbort m => Sys2Proof.Machine.execBldCmdAbort m s
  | .bldCmdIgnored code => Sys2Proof.Machine.execBldCmdIgnored code s
  | .buildStart => Sys2Proof.Machine.execBuildStart s
  | .cellCompletion => Sys2Proof.Machine.execCellCompletion s
  | .ctxWrite c r v => Sys2Proof.Machine.execCtxWrite c r v s
  | .jobPush c v => Sys2Proof.Machine.execJobPush c v s
  | .segmentStartAttempt c => Sys2Proof.Machine.execSegmentStartAttempt c s
  | .pixelStep c => Sys2Proof.Machine.execPixelStep c s
  | .chIn c v => Sys2Proof.Machine.execChIn c v s
  | .chOut c => Sys2Proof.Machine.execChOut c s
  | .chCmdAbort c => Sys2Proof.Machine.execChCmdAbort c s
  | .chCmdResume c => Sys2Proof.Machine.execChCmdResume c s
  | .chCmdReset c => Sys2Proof.Machine.execChCmdReset c s
  | .chCmdIgnored c code => Sys2Proof.Machine.execChCmdIgnored c code s

end Sys2Proof.Machine
end

