-- ==== Sys2Proof/Machine/Status.lean ====
section
/-! DEFINITION. The word each readable register returns (Tables 11-6 to 11-9, R183). The reads here
change nothing and have no row in the table; the words of EQ_HEAD0, EQ_HEAD1, EQ_NEXT, AP_DATA and
CH_OUT are given by the meanings of their rows. -/

namespace Sys2Proof.Machine

/-- ENG_CTRL (R179): the scanout enable reads 1 while the unit is ARMED or ON. -/
def State.engCtrlRead (s : State) : Word :=
  putBit (decide (s.scanout.state ≠ .off)) 1 ||| putBit s.enables.urg 4 ||| putBit s.enables.rtn 5 |||
    putBit s.enables.flt 6

/-- The channel is HALTED. -/
def State.isHalted (s : State) (c : Chan) : Bool := decide ((s.chan c).state = .halted)

/-- ENG_STATUS (R179). -/
def State.engStatus (s : State) : Word :=
  putBit s.irq 0 ||| putBit s.urgentCondition 1 ||| putBit s.routineCondition 2 |||
    putBit s.overdueCondition 3 ||| putBit s.faultCondition 4 ||| putBit (s.isHalted .ch0) 8 |||
    putBit (s.isHalted .ch1) 9 ||| putBit (s.isHalted .ch2) 10

/-- EQ_STATUS (R174). -/
def State.eqStatus (s : State) : Word :=
  putNat 6 s.eq.urgentCount 0 ||| putNat 5 s.eq.routineCount 8 ||| putBit s.eq.claim.isSome 16 |||
    putBit (decide (s.eq.claim = some .urgent)) 17 ||| putBit s.eq.overdue 18

/-- STG_STATUS without the OPEN record's bank (R58). -/
def State.stgStatusBase (s : State) : Word :=
  putNat 6 s.uq.recordCount 0 ||| putNat 8 s.uq.wordCount 8 ||| putBit s.uq.openRecord.isSome 16 |||
    putBit (s.sealedPending .b0) 20 ||| putBit (s.sealedPending .b1) 21 |||
    putBit (s.sealedPending .b2) 22 ||| putBit (s.sealedPending .b3) 23

/-- STG_STATUS (R58). With no record OPEN the bank field is free (log 5). -/
def State.stgStatus (s : State) : Word :=
  s.stgStatusBase |||
    putAt (match s.uq.openRecord with
      | some r => r.bank.code
      | none => Config.noOpenBank s.stgStatusBase) 17

/-- The prefetch states (R63). -/
inductive PrefetchState where
  | empty | filling | ready
deriving DecidableEq, Repr

/-- The prefetch's state (R63). -/
def AccessPort.prefetch (p : AccessPort) : PrefetchState :=
  if p.filling then .filling else if p.items = [] then .empty else .ready

/-- The code of a prefetch state (Table 11-9). -/
def PrefetchState.code : PrefetchState → Nat
  | .empty => 0 | .filling => 1 | .ready => 2

/-- AP_ADDR (R60, Table 11-6). -/
def State.apAddrRead (s : State) : Word := putNat 9 s.port.index 0 ||| putAt s.port.target.code 16

/-- AP_STATUS (R71). -/
def State.apStatus (s : State) : Word :=
  putNat 9 s.port.index 0 ||| putAt s.port.target.code 16 |||
    putNat 2 s.port.prefetch.code 20 ||| putNat 2 s.port.items.length 24

/-- BANK_STATUS (R33). -/
def State.bankStatus (s : State) (b : BankId) : Word :=
  putAt (s.bank b).generation 0 ||| putNat 3 (s.bank b).holders 16 |||
    putBit (s.sealedPending b) 20 ||| putBit (s.hasRole b) 21

/-- The code of a scanout state (Table 11-9). -/
def ScanoutState.code : ScanoutState → Nat
  | .off => 0 | .armed => 1 | .on => 2

/-- SCN_STATUS (R161). -/
def State.scnStatus (s : State) : Word :=
  putNat 2 s.scanout.state.code 0 ||| putAt s.scanout.current.code 4 ||| putAt s.scanout.frame 16

/-- BLD_REQ0 (R93, Table 11-6). -/
def BuildRegs.req0 (r : BuildRegs) : Word :=
  putAt r.first 0 ||| putAt r.last 8 ||| putAt r.source.code 16 ||| putAt r.map.code 20

/-- BLD_REQ1 (R93, Table 11-6). -/
def BuildRegs.req1 (r : BuildRegs) : Word :=
  putAt r.nr 0 ||| putAt r.ng 4 ||| putAt r.nb 8 ||| putBit r.skipTransparent 12 |||
    putBit r.autoRebuild 13 ||| putBit r.transparentPresent 15 ||| putAt r.transparentValue 16

/-- The code of an engine state (Table 11-9). -/
def EngineState.code : EngineState → Nat
  | .idle => 0 | .building => 1 | .post _ => 2

/-- BLD_STATUS (R109). -/
def State.bldStatus (s : State) : Word :=
  putNat 2 s.engine.state.code 0 ||| putAt s.engine.current.code 2 |||
    putNat 2 s.engine.requests.length 4 ||| putBit s.engine.abortSlot.isSome 6 |||
    putNat 10 s.engine.progress 16

/-- The number Q of the shape code (R183). -/
def ReductionMap.shapeQ (m : ReductionMap) : Nat :=
  match m.state with
  | .empty => 0
  | .building => 1
  | .ready => 2 + m.holders
  | .stale => 6 + m.holders

/-- The shape code of a map (R183). -/
def ReductionMap.shapeCode (m : ReductionMap) : Nat :=
  m.shapeQ + 10 * (m.params.nr - 2) + 70 * (m.params.ng - 2) + 490 * (m.params.nb - 2)

/-- MAP_STATUS (R91, R183). -/
def State.mapStatus (s : State) (m : MapId) : Word :=
  putBit (s.buildPending m) 0 ||| putBit (s.map m).params.autoRebuild 1 |||
    putAt (s.map m).params.source.code 2 ||| putNat 12 (s.map m).shapeCode 4 |||
    putAt (s.map m).generation 16

/-- A context register (R111, Table 11-9). -/
def Context.regWord (x : Context) (r : CtxReg) : Word :=
  match r with
  | .fmt =>
    putAt x.src.code 0 ||| putAt x.dst.code 4 ||| putAt x.bank.code 8 ||| putAt x.map.code 12 |||
      putBit x.acceptStale 16 ||| putBit x.dither 17
  | .keyLo => x.keyLo.toWord
  | .keyHi => x.keyHi.toWord
  | .edge =>
    putBit x.keyEnB 0 ||| putBit x.keyEnG 1 ||| putBit x.keyEnR 2 ||| putBit x.keyEnA 3 |||
      putBit x.edgeEn 8 ||| putAt x.edgeAlpha 16
  | .lanes =>
    putAt x.lanes.lane0.code 0 ||| putAt x.lanes.lane1.code 2 ||| putAt x.lanes.lane2.code 4 |||
      putAt x.lanes.lane3.code 6
  | .seg => putAt x.segLen 0 ||| putAt x.stallLimit 16

/-- The code of a channel state (Table 11-9). -/
def ChanState.code : ChanState → Nat
  | .idle => 0 | .wait _ => 1 | .run => 2 | .post _ => 3 | .halted => 4

/-- The code of the wait reason, NONE outside WAIT (R116, Table 11-9). -/
def ChanState.reasonCode : ChanState → Nat
  | .wait .start => 1 | .wait .bankCommit => 2 | .wait .mapBusy => 3
  | .idle => 0 | .run => 0 | .post _ => 0 | .halted => 0

/-- The last fault code, 0 for none (R136). -/
def Channel.faultCode (x : Channel) : Nat :=
  match x.lastFault with
  | none => 0
  | some f => f.code

/-- CH_STATUS (R136). -/
def Channel.status (x : Channel) : Word :=
  putAt x.tag 0 ||| putNat 3 x.state.code 8 ||| putNat 2 x.state.reasonCode 11 |||
    putNat 3 x.faultCode 13 ||| putNat 4 x.jobs.length 16 ||| putNat 5 x.inFifo.length 20 |||
    putNat 5 x.outFifo.length 25

/-- CH_PROGRESS (R136). -/
def Channel.progress (x : Channel) : Word :=
  putNat 20 x.path.done 0 ||| putNat 12 (x.segment % 4096) 20

/-- The word a valid read of a register returns, for the registers whose read changes nothing; none
for the registers that are write-only or whose read is a row of the table. -/
def State.registerWord (s : State) (r : Reg) : Option Word :=
  match r with
  | .engCtrl => some s.engCtrlRead
  | .engStatus => some s.engStatus
  | .hostFaults => some (putAt s.hostFaults 0)
  | .tickDiv => some (putAt s.timebase.div 0)
  | .eqCtrl => some (putAt s.eq.threshold 0 ||| putAt s.eq.timeout 8)
  | .eqStatus => some s.eqStatus
  | .stgStatus => some s.stgStatus
  | .apAddr => some s.apAddrRead
  | .apStatus => some s.apStatus
  | .bankStatus b => some (s.bankStatus b)
  | .scnCtrl => some (putAt s.scanout.next.code 0)
  | .scnStatus => some s.scnStatus
  | .bldReq0 => some s.engine.regs.req0
  | .bldReq1 => some s.engine.regs.req1
  | .bldStatus => some s.bldStatus
  | .mapStatus m => some (s.mapStatus m)
  | .ctx c r => some ((s.chan c).ctx.regWord r)
  | .jobCount c => some (putAt (s.chan c).jobCount 0)
  | .jobWidth c => some (putAt (s.chan c).jobWidth 0)
  | .chStatus c => some (s.chan c).status
  | .chProgress c => some (s.chan c).progress
  | .eqHead0 | .eqHead1 | .eqNext | .eqPop | .stgHdr | .stgData | .stgCmd | .apData | .bldCmd
  | .jobPush _ | .chCmd _ | .chIn _ | .chOut _ => none

end Sys2Proof.Machine
end

