-- ==== Sys2Proof/Safety.lean ====
section
/-! DEFINITION. What the manual says holds of the part at every moment, as predicates on the state: the
laws that every step keeps. -/

namespace Sys2Proof.Safety

open Sys2Proof.Machine

/-! ## Holds (R15, R84, R87, R95) -/

/-- The hold a channel contributes to a bank: 1 in RUN with source format I8 on it (R15). -/
def chanBankHold (x : Channel) (b : BankId) : Nat :=
  if x.state = .run ∧ x.ctx.holdsBank b = true then 1 else 0

/-- The hold a channel contributes to a map: 1 in RUN with destination format I8 on it (R84). -/
def chanMapHold (x : Channel) (m : MapId) : Nat :=
  if x.state = .run ∧ x.ctx.holdsMap m = true then 1 else 0

/-- The hold the build engine contributes to a bank: 1 while it is BUILDING from it (R15, R18). -/
def engineHold (s : State) (b : BankId) : Nat :=
  if s.engine.state = .building ∧ (s.map s.engine.current).params.source = b then 1 else 0

/-- The number of holds on a bank (R15). -/
def bankHolds (s : State) (b : BankId) : Nat :=
  chanBankHold (s.chan .ch0) b + chanBankHold (s.chan .ch1) b + chanBankHold (s.chan .ch2) b +
    engineHold s b

/-- The number of holds on a map (R84). -/
def mapHolds (s : State) (m : MapId) : Nat :=
  chanMapHold (s.chan .ch0) m + chanMapHold (s.chan .ch1) m + chanMapHold (s.chan .ch2) m

/-- The map that is BUILDING is the one the engine, BUILDING, has as its current map (R95, R96). -/
def EngineAgrees (s : State) : Prop :=
  ∀ m, (s.map m).state = .building ↔ s.engine.state = .building ∧ s.engine.current = m

/-- Every holder count is the number of holds (R15, R84), and no BUILDING map is held (R87). -/
def HoldsAgree (s : State) : Prop :=
  EngineAgrees s ∧ (∀ b, (s.bank b).holders = bankHolds s b) ∧
    (∀ m, (s.map m).holders = mapHolds s m) ∧
    (∀ m, (s.map m).state = .building → (s.map m).holders = 0)

/-! ## Capacities and shapes (Table 0-2) -/

/-- An update record has a legal run, and its colours are as many as its state says (R36, R38, R39). -/
def RecordOk (r : UpdateRecord) : Prop :=
  1 ≤ r.count ∧ r.count ≤ 8 ∧ r.start.toNat + r.count ≤ 256 ∧
    (r.state = .opened → r.colours.length < r.count) ∧
    (r.state ≠ .opened → r.colours.length = r.count)

/-- The update queue holds at most 32 records and 128 colour words, each record well shaped, and at
most one of them OPEN (R37, R38). -/
def StagingOk (s : State) : Prop :=
  s.uq.recordCount ≤ 32 ∧ s.uq.wordCount ≤ 128 ∧ (∀ r ∈ s.uq.records, RecordOk r) ∧
    (s.uq.records.filter fun r => decide (r.state = .opened)).length ≤ 1

/-- The event queue holds at most 32 records, at most 24 of them ROUTINE (R164); a claim is of a
record in the queue (R166); with no ROUTINE record the coalescing timer is 0 and the overdue flag clear
(R173); the threshold lies from 1 to 24 (R172). -/
def EventsOk (s : State) : Prop :=
  s.eq.urgentCount + s.eq.routineCount ≤ 32 ∧ s.eq.routineCount ≤ 24 ∧
    (∀ c, s.eq.claim = some c → s.eq.ofClass c ≠ []) ∧
    (s.eq.routine = [] → s.eq.timer = 0 ∧ s.eq.overdue = false) ∧
    1 ≤ s.eq.threshold.toNat ∧ s.eq.threshold.toNat ≤ 24

/-- A channel's queues keep within their capacities, with descriptors a push accepts; a job is current
only with its descriptor at the head of the queue, and IDLE has no descriptor (R114 to R116, R131,
R133). -/
def ChannelOk (x : Channel) : Prop :=
  x.jobs.length ≤ 8 ∧ (∀ j ∈ x.jobs, j.valid = true) ∧ x.inFifo.length ≤ 16 ∧ x.outFifo.length ≤ 16 ∧
    (x.state.hasJob = true → x.jobs ≠ []) ∧ (x.state = .idle → x.jobs = [])

/-- Every collection of the part keeps within its capacity and its shape, the port's index lies within
its target (R60), and TICK_DIV is not 0 (R182). -/
def CollectionsOk (s : State) : Prop :=
  StagingOk s ∧ EventsOk s ∧ (∀ c, ChannelOk (s.chan c)) ∧
    (∀ b, Palette.wf (s.bank b).entries = true) ∧ s.port.index < s.port.target.positions ∧
    s.timebase.div ≠ 0

/-! ## Commits (R20, R48, R56) -/

/-- A bank's sealed-pending flag is set exactly while the update queue holds a SEALED record for it
(R20, R48), and a DEFERRED bank has holder count 0 and not the display role (R48). -/
def CommitsAgree (s : State) : Prop :=
  ∀ b, (s.sealedPending b = true ↔ ∃ r ∈ s.uq.records, r.sealedFor b = true) ∧
    (s.commitOf b = .deferred → (s.bank b).holders = 0 ∧ s.hasRole b = false)

/-! ## The prefetch (R63, R65, R67) -/

/-- The items present are what the target holds now at the current index and the next, in that order;
no item is present in a stretched read, which has a fill in progress; a fill in progress has at most
one item, and the prefetch without a fill is EMPTY or has two (R63, R65, R67). -/
def PrefetchOk (s : State) : Prop :=
  s.port.index < s.port.target.positions ∧
    (s.port.stretched = true → s.port.items = [] ∧ s.port.filling = true) ∧
    match s.port.items with
    | [] => True
    | [x] => s.port.filling = true ∧ x = s.item s.port.target s.port.index
    | [x, y] =>
      s.port.filling = false ∧ x = s.item s.port.target s.port.index ∧
        y = s.item s.port.target (s.port.target.after s.port.index)
    | _ => False

/-! ## Maps and the engine (R78, R79, R95, R97) -/

/-- The cell's indices lie in the eligible range, and its second differs from its best (R78). -/
def CellOk (p : MapParams) (c : Cell) : Prop :=
  p.first.toNat ≤ c.best.toNat ∧ c.best.toNat ≤ p.last.toNat ∧ c.weight ≤ 8 ∧
    ∀ t, c.second = some t → t ≠ c.best ∧ p.first.toNat ≤ t.toNat ∧ t.toNat ≤ p.last.toNat

/-- The valid cells of a map are those its state says, and each names eligible indices (R78 to R81). -/
def MapOk (s : State) (m : MapId) : Prop :=
  (s.map m).params.valid = true ∧
    (∀ c ∈ (s.map m).cells, CellOk (s.map m).params c) ∧
    match (s.map m).state with
    | .empty => (s.map m).cells = []
    | .building =>
      (s.map m).cells.length = s.engine.progress ∧
        s.engine.progress < (s.map m).params.cellCount
    | .ready => (s.map m).cells.length = (s.map m).params.cellCount
    | .stale => (s.map m).cells.length = (s.map m).params.cellCount

/-- The request list holds at most one request per map, none for a BUILDING map, each with parameters
a REQUEST accepts (R94, R95). -/
def RequestsOk (s : State) : Prop :=
  (s.engine.requests.map fun r => r.map).Nodup ∧
    ∀ r ∈ s.engine.requests, r.params.valid = true ∧ (s.map r.map).state ≠ .building

/-- The maps, the engine and the request list agree (R78 to R81, R94, R95). -/
def MapsOk (s : State) : Prop := EngineAgrees s ∧ (∀ m, MapOk s m) ∧ RequestsOk s

/-- An IDLE engine has no request it could start (R97). -/
def NoBuildMissed (s : State) : Prop :=
  s.engine.state = .idle → ∀ r ∈ s.engine.requests, s.startable r = false

/-! ## Waiting channels (R120) -/

/-- A channel waits with a reason only while the reason holds: its bank has sealed records pending, or
its map is BUILDING or has a build request pending (R120). -/
def WaitOk (s : State) (x : Channel) : Prop :=
  (x.state = .wait .bankCommit → s.bankHoldsBack x.ctx = true) ∧
    (x.state = .wait .mapBusy → s.mapHoldsBack x.ctx = true)

/-- No channel waits for what has already happened (R120). -/
def WaitsOk (s : State) : Prop := ∀ c, WaitOk s (s.chan c)

/-! ## The pixel path (R118, R138, R140, R146, R151) -/

/-- A channel in the middle of its job: in WAIT, in RUN, or in POST with a SEGMENT record. -/
def MidJob (x : Channel) : Prop :=
  match x.state with
  | .wait _ => True
  | .run => True
  | .post r => r.kind = .segment
  | .idle => False
  | .halted => False

/-- The number of the segment that the job's next pixel belongs to (R118). -/
def segmentOf (segLen n k : Nat) : Nat := if segLen = 0 ∨ n ≤ segLen then 0 else k / segLen

/-- In the middle of a job of the descriptor at the queue's head: pixels are left to step; pixels done
counts the pixels stepped but for the held one, which is the last of them, under edge on, and did not
end its row; a word is in hand, or in progress, exactly when a lane of it is used and another is not;
the lanes of the word in progress that no pixel fills yet are 0; the segment number is that of the next
pixel, which in POST is the next segment's. -/
def PathOk (x : Channel) : Prop :=
  MidJob x → ∃ job rest, x.jobs = job :: rest ∧ x.path.next < job.count ∧
    (match x.path.held with
      | none => x.path.done = x.path.next
      | some h =>
        x.path.done + 1 = x.path.next ∧ h.number = x.path.done ∧ x.ctx.edgeEn = true ∧
          endsRow job.width job.count h.number = false) ∧
    (x.path.inWord = none ↔ x.path.next % x.ctx.src.perWord = 0) ∧
    (x.path.outWord = none ↔ x.path.done % x.ctx.dst.perWord = 0) ∧
    (x.path.outWord.getD 0).toNat < 2 ^ (x.path.done % x.ctx.dst.perWord * x.ctx.dst.laneBits) ∧
    segmentOf x.ctx.segLen.toNat job.count x.path.next =
      (match x.state with
        | .post _ => x.segment + 1
        | _ => x.segment)

/-- The path of every channel agrees with its job. -/
def PathsOk (s : State) : Prop := ∀ c, PathOk (s.chan c)

/-! ## Effects of a change of a bank, as R25, R65, R82, R83 and R120 say them -/

/-- The map after a change of the bank: READY and sourced from it goes STALE (R82). -/
def mapAfterChange (x : ReductionMap) (b : BankId) : ReductionMap :=
  if x.state = .ready ∧ x.params.source = b then { x with state := .stale } else x

/-- The port after a change of a table: told, if the table is its target (R65). -/
def portAfterChange (p : AccessPort) (t : PortTarget) : AccessPort :=
  if p.target = t then { p with items := [], filling := true } else p

/-- The requests after a change of the bank are those before and, after them in one of the orders, one
of each map that goes STALE with auto-rebuild set and no request pending, with its recorded parameters
(R83). -/
def RequestsAfterChange (s : State) (b : BankId) (l : List BuildRequest) : Prop :=
  ∃ new : List BuildRequest, l = s.engine.requests ++ new ∧ (new.map fun r => r.map).Nodup ∧
    ∀ r, r ∈ new ↔ (s.map r.map).state = .ready ∧ (s.map r.map).params.source = b ∧
      (s.map r.map).params.autoRebuild = true ∧ s.buildPending r.map = false ∧
      r.params = (s.map r.map).params

/-- The channel after the sealed-pending flag of the bank clears (R120). -/
def chanAfterCommit (x : Channel) (b : BankId) : Channel :=
  if x.state = .wait .bankCommit ∧ x.ctx.bank = b then { x with state := .wait .start } else x

/-- The channel after the map's wait condition clears (R120). -/
def chanAfterBuild (x : Channel) (m : MapId) : Channel :=
  if x.state = .wait .mapBusy ∧ x.ctx.map = m then { x with state := .wait .start } else x

/-- The COMMIT record of a bank that has reached the generation `gen` at frame counter `frame` (R53). -/
def commitRecordOf (b : BankId) (gen frame : BitVec 16) : EventRecord :=
  { kind := .commit, cls := .routine, source := b.code, tag := 0, detail1 := gen.toNat,
    detail2 := frame.toNat }

/-- The attempt of a bank's commit (R54): of a bank that is PENDING without holds, a set without notify
is committed, and so is one with notify when the event queue has room for a ROUTINE record; otherwise
the display bank stays PENDING and any other bank is DEFERRED. -/
def commitAttempt (s : State) (b : BankId) (display : Bool) : State :=
  if s.commitOf b = .pending ∧ (s.bank b).holders = 0 then
    if s.uq.asksNotice b = true ∧ s.eq.hasRoom .routine = false then
      s.setCommit b (if display then .pending else .deferred)
    else s.commit b
  else s

/-- A command that ends a claim, if it takes effect: a pop, EQ_NEXT, a full reset, or an ENG_CTRL write
with the soft reset (R166). -/
def endsClaim (i : Instr) : Bool :=
  match i with
  | .eqPop _ | .eqNext | .fullReset | .softReset _ _ => true
  | .scanoutEnable r _ | .scanoutDisable r _ | .interruptEnables r _ _ => r
  | _ => false

/-- A command that clears host-fault flags, if it takes effect: a write to HOST_FAULTS, a full reset, or
an ENG_CTRL write with the soft reset (R178). -/
def clearsHostFaults (i : Instr) : Bool :=
  match i with
  | .hostFaults _ | .fullReset | .softReset _ _ => true
  | .scanoutEnable r _ | .scanoutDisable r _ | .interruptEnables r _ _ => r
  | _ => false

/-! ## The search of a cell, as R100 says it -/

/-- The distance between an entry and a cell centre: the sum of the squared differences of red, green
and blue (R77). -/
def squaredDistance (e : Entry) (c : Centre) : Nat :=
  (((e.r.toNat : Int) - c.r) ^ 2 + ((e.g.toNat : Int) - c.g) ^ 2 + ((e.b.toNat : Int) - c.b) ^ 2).toNat

/-- The index `i` of the list is of least distance, and the lowest of those that share it. -/
def IsNearest (d : Nat → Nat) (l : List Nat) (i : Nat) : Prop :=
  i ∈ l ∧ ∀ j ∈ l, d i ≤ d j ∧ (d j = d i → i ≤ j)

/-- The cell is what the search of the bank's entries finds for cell `i` (R100). -/
def IsSearchResult (p : MapParams) (bank : List (Nat × Entry)) (i : Nat) (c : Cell) : Prop :=
  let d := fun j => squaredDistance (Palette.read bank j) (p.centre i)
  let l := p.eligible bank
  IsNearest d l c.best.toNat ∧
    match c.second with
    | none => (∀ j ∈ l, j = c.best.toNat) ∧ c.weight = 0
    | some t =>
      IsNearest d (l.filter fun j => decide (j ≠ c.best.toNat)) t.toNat ∧
        c.weight = if d c.best.toNat = d t.toNat then 8
          else 16 * d c.best.toNat / (d c.best.toNat + d t.toNat)

/-! ## Edges, as R144 defines them -/

/-- The entry of pixel `k` leaves the edge step as R144 says, for the entries `f` that the pixels of a
job of `n` pixels and row width `w` have on leaving the key step. -/
def edgeRule (x : Context) (w n : Nat) (f : Nat → Entry) (k : Nat) : Entry :=
  let left := k % w ≠ 0 ∧ (f (k - 1)).a = 0
  let right := k % w ≠ w - 1 ∧ k + 1 < n ∧ (f (k + 1)).a = 0
  if x.edgeEn = true ∧ (f k).a ≠ 0 ∧ (left ∨ right) then { f k with a := x.edgeAlpha } else f k

/-- The pixels the edge step has released, and the one it holds, after the steps of the first `k`
pixels. -/
def edgeRun (x : Context) (w n : Nat) (f : Nat → Entry) : Nat → List Released × Option HeldPixel
  | 0 => ([], none)
  | k + 1 =>
    let before := edgeRun x w n f k
    let now := x.edge w n k (f k) before.2
    (before.1 ++ now.1, now.2)

end Sys2Proof.Safety
end

