-- ==== Sys2Proof/WellFormed.lean ====
section
/-! DEFINITION. Which terms of `Instr` name a command the part can be given: an INVALID_ACCESS is an
access that R176 calls invalid, within the 1 KiB window; a WRONG_TYPE_ACCESS is a valid access of the
type the register lacks (R177); an ignored command's code is one its register ignores. -/

namespace Sys2Proof

/-- The size of the register window in bytes (00 section 0.2). -/
def windowBytes : Nat := 1024

/-- The command is one the part can be given. -/
def Instr.wf (i : Instr) : Bool :=
  match i with
  | .invalidAccess _ width offset => offset < windowBytes && (accessReg width offset).isNone
  | .wrongTypeAccess true r => !r.writable
  | .wrongTypeAccess false r => !r.readable
  | .stgCmdIgnored code => code == 0 || code == 3
  | .bldCmdIgnored code => code == 0 || code == 3
  | .chCmdIgnored _ code => code == 0
  | .fullReset | .frameStart | .lookup _ | .tick | .stalled _ | .overdue | .registerWrite _ _
  | .softReset _ _ | .scanoutEnable _ _ | .scanoutDisable _ _ | .interruptEnables _ _ _
  | .hostFaults _ | .tickDiv _ | .eqHead0 | .eqHead1 | .eqNext | .eqPop _ | .eqCtrl _
  | .insertionEvent | .stgHdr _ | .stgData _ | .stgCmdSeal _ _ | .stgCmdDiscard _ | .apAddr _
  | .apDataRead | .apDataWrite _ | .fetchCompletion | .scnCtrl _ | .bldCmdRequest | .bldCmdAbort _
  | .buildStart | .cellCompletion | .ctxWrite _ _ _ | .jobPush _ _ | .segmentStartAttempt _
  | .pixelStep _ | .chIn _ _ | .chOut _ | .chCmdAbort _ | .chCmdResume _ | .chCmdReset _ => true

end Sys2Proof
end

