-- ==== Sys2Proof/Certificates/Slice0/Obligations.lean ====
section
/-! DEFINITION. The statements about the part, from the numbered rules of the manual. A statement about
a host access has the premise that no read is stretched (R67, R176); what it says of the command's own
effect ends, where the event may free a table for a build, in `State.lookForBuild`, the engine's look
for a request to start, which BuildStartTakesTheOldestStartableRequest states: that the look belongs to
the same event is the model's reading of R97 (log 10). An equation `exec i s = .next t` says that every part of the state it does not mention is
unchanged. -/

section

open Sys2Proof Sys2Proof.Machine Sys2Proof.Safety

/-! ## The queue of commands and the clock -/

/-- A step takes the command at the front of the queue and runs its meaning with the rest. -/
def Obligations.StepRunsTheFrontCommand : Prop :=
  ∀ (c : Instr) (rest : List Instr) (s : State), s.pending = c :: rest →
    step s = exec c { s with pending := rest }

/-- The ticks (R182, R126, R173). The step of an empty queue is one cycle of the engine clock, and the
TICK_DIVth cycle is a tick: that an empty queue is a clock cycle is the model's choice (log 2). A tick
advances the stall timer of each channel that is blocked in RUN with a stall limit, faults each whose
timer it brings to the limit, and leaves the stall timers of the other channels; when none is faulted,
that, the coalescing timer and the restarted count are all it does before the engine's look (log 10).
That a TICK in the queue restarts the count is the model's reading (log 15), and so is that STALLED and
OVERDUE, as commands of their own, do the one part of a tick that R126 and R173 give them (log 13). -/
def Obligations.TicksDriveTheTimers : Prop :=
  (∀ s : State, s.pending = [] →
    (s.timebase.count + 1 < s.timebase.div.toNat →
      step s = .next { s with timebase := { s.timebase with count := s.timebase.count + 1 } }) ∧
    (s.timebase.div.toNat ≤ s.timebase.count + 1 → step s = exec .tick s)) ∧
  (∀ s : State, ∃ t, exec .tick s = .next t ∧
    t.timebase = { s.timebase with count := 0 } ∧
    ∀ c, ((s.blocked c = true ∧ (s.chan c).ctx.stallLimit ≠ 0 ∧
          (s.chan c).ctx.stallLimit.toNat ≤ (s.chan c).stall + 1) →
        t.chan c = (s.chan c).faulted c .stalled) ∧
      ((s.blocked c = true ∧ (s.chan c).ctx.stallLimit ≠ 0 ∧
          (s.chan c).stall + 1 < (s.chan c).ctx.stallLimit.toNat) →
        t.chan c = { s.chan c with stall := (s.chan c).stall + 1 }) ∧
      ((s.blocked c = false ∨ (s.chan c).ctx.stallLimit = 0) →
        (t.chan c).stall = (s.chan c).stall)) ∧
  (∀ s : State,
    (∀ c, s.blocked c = false ∨ (s.chan c).ctx.stallLimit = 0 ∨
      (s.chan c).stall + 1 < (s.chan c).ctx.stallLimit.toNat) →
    ∃ u : State, exec .tick s = .next u.lookForBuild ∧
      u = { s with
        timebase := { s.timebase with count := 0 }
        eq := if s.eq.routine ≠ [] ∧ s.eq.timeout ≠ 0 ∧ s.eq.overdue = false then
            { s.eq with timer := s.eq.timer + 1, overdue := decide (s.eq.timeout.toNat ≤ s.eq.timer + 1) }
          else s.eq
        channels := u.channels } ∧
      ∀ c, u.chan c =
        if s.blocked c = true ∧ (s.chan c).ctx.stallLimit ≠ 0 then
          { s.chan c with stall := (s.chan c).stall + 1 }
        else s.chan c) ∧
  (∀ (c : Chan) (s : State), s.blocked c = true → (s.chan c).ctx.stallLimit ≠ 0 →
    (s.chan c).ctx.stallLimit.toNat ≤ (s.chan c).stall + 1 →
    exec (.stalled c) s = .next ((s.faultJob c .stalled).lookForBuild)) ∧
  (∀ s : State, s.eq.routine ≠ [] → s.eq.timeout ≠ 0 → s.eq.overdue = false →
    s.eq.timeout.toNat ≤ s.eq.timer + 1 →
    exec .overdue s = .next { s with eq := { s.eq with timer := s.eq.timer + 1, overdue := true } })

/-- The model's choice (log 9): a command for an event of the part whose conditions do not hold, and
one that names an access as invalid or of the wrong type which is neither, leaves the state unchanged. -/
def Obligations.EventsOutsideTheirConditionsChangeNothing : Prop :=
  ∀ s : State,
    (∀ c, s.blocked c = false ∨ (s.chan c).ctx.stallLimit = 0 ∨
        (s.chan c).stall + 1 < (s.chan c).ctx.stallLimit.toNat →
      exec (.stalled c) s = .next s) ∧
    (s.eq.routine = [] ∨ s.eq.timeout = 0 ∨ s.eq.overdue = true ∨
        s.eq.timer + 1 < s.eq.timeout.toNat →
      exec .overdue s = .next s) ∧
    (s.port.filling = false → exec .fetchCompletion s = .next s) ∧
    (s.engine.state ≠ .idle ∨
        (∀ q ∈ s.engine.requests, (s.map q.map).holders ≠ 0 ∨ s.commitOf q.params.source ≠ .none) →
      exec .buildStart s = .next s) ∧
    (s.engine.state ≠ .building → exec .cellCompletion s = .next s) ∧
    (∀ c, (s.chan c).state ≠ .wait .start → exec (.segmentStartAttempt c) s = .next s) ∧
    (∀ c, s.pixelReady c = none → exec (.pixelStep c) s = .next s) ∧
    ((∀ r, s.engine.state = .post r → s.eq.hasRoom r.cls = false) →
      (∀ r, s.engine.abortSlot = some r → s.eq.hasRoom r.cls = false) →
      (∀ c r, (s.chan c).state = .post r → s.eq.hasRoom r.cls = false) →
      ((∀ b, s.commitOf b ≠ .deferred) ∨ s.eq.hasRoom .routine = false) →
      exec .insertionEvent s = .next s) ∧
    (∀ write width offset, accessReg width offset ≠ none →
      exec (.invalidAccess write width offset) s = .next s) ∧
    (∀ write (r : Reg), (if write then r.writable else r.readable) = true →
      exec (.wrongTypeAccess write r) s = .next s)

/-! ## Resets and the register window (chapter 11) -/

/-- A full reset gives every piece of state its value after full reset (R181). -/
def Obligations.FullResetGivesEveryResetValue : Prop :=
  ∀ s : State, ∃ t, exec .fullReset s = .next t ∧
    (∀ b, (∀ i, Palette.read (t.bank b).entries i = { a := 0, r := 0, g := 0, b := 0 }) ∧
      (t.bank b).generation = 0 ∧ (t.bank b).holders = 0 ∧ t.sealedPending b = false ∧
      t.hasRole b = false) ∧
    t.uq.records = [] ∧ (∀ b, t.commitOf b = .none) ∧
    t.port = { target := .bank .b0, index := 0, items := [], filling := false, stretched := false } ∧
    (∀ m, t.map m =
        { state := .empty, generation := 0, holders := 0, cells := []
          params := { source := .b0, nr := 2, ng := 2, nb := 2, first := 0, last := 255,
                      skipTransparent := false, transparent := none, autoRebuild := false } } ∧
      t.buildPending m = false ∧ t.mapStatus m = 0) ∧
    t.engine =
      { state := .idle, current := .m0, progress := 0, abortSlot := none, requests := []
        regs := { map := .m0, source := .b0, first := 0, last := 255, nr := 2, ng := 2, nb := 2,
                  skipTransparent := false, autoRebuild := false, transparentPresent := false,
                  transparentValue := 0 } } ∧
    (∀ c, t.chan c =
        { ctx := { src := .a8888, dst := .a8888, bank := .b0, map := .m0, acceptStale := false,
                   dither := false, keyEnA := false, keyEnR := false, keyEnG := false,
                   keyEnB := false, keyLo := { a := 0, r := 0, g := 0, b := 0 },
                   keyHi := { a := 0, r := 0, g := 0, b := 0 }, edgeEn := false, edgeAlpha := 0,
                   lanes := { lane0 := .b, lane1 := .g, lane2 := .r, lane3 := .a }, segLen := 0,
                   stallLimit := 0 }
          jobCount := 0, jobWidth := 0, jobs := [], state := .idle, segment := 0, tag := 0,
          lastFault := none, inFifo := [], outFifo := [], stall := 0
          path := { next := 0, inWord := none, held := none, outWord := none, done := 0 } } ∧
      (t.chan c).ctx.regWord .lanes = 0xE4) ∧
    t.scanout = { state := .off, current := .b0, next := .b0, frame := 0 } ∧
    t.eq = { urgent := [], routine := [], claim := none, stamp := 0, threshold := 1, timeout := 0,
             timer := 0, overdue := false, lastServed := .ch2 } ∧
    t.hostFaults = 0 ∧ t.engCtrlRead = 0 ∧ t.timebase.div.toNat = 50000 ∧ t.timebase.count = 0 ∧
    t.irq = false ∧ (s.port.stretched = true → t.bus.readData = 0) ∧ t.pending = s.pending

/-- An ENG_CTRL write with the soft reset ends all work, keeps the palette, the generations, TICK_DIV,
the timebase's progress and the EQ_CTRL fields, and then sets the enables and judges the scanout enable
(R179, R180). -/
def Obligations.SoftResetEndsWorkAndKeepsThePalette : Prop :=
  ∀ (e : Bool) (en : IrqEnables) (s : State), s.port.stretched = false →
    ∃ t, exec (.softReset e en) s = .next t ∧
      (∀ b, t.bank b = { s.bank b with holders := 0 } ∧ t.sealedPending b = false) ∧
      t.uq.records = [] ∧
      t.port = { target := .bank .b0, index := 0, items := [], filling := false, stretched := false } ∧
      (∀ m, t.map m =
        { state := .empty, generation := (s.map m).generation, holders := 0, cells := []
          params := { source := .b0, nr := 2, ng := 2, nb := 2, first := 0, last := 255,
                      skipTransparent := false, transparent := none, autoRebuild := false } }) ∧
      t.engine =
        { state := .idle, current := .m0, progress := 0, abortSlot := none, requests := []
          regs := { map := .m0, source := .b0, first := 0, last := 255, nr := 2, ng := 2, nb := 2,
                    skipTransparent := false, autoRebuild := false, transparentPresent := false,
                    transparentValue := 0 } } ∧
      (∀ c, t.chan c =
        { ctx := { src := .a8888, dst := .a8888, bank := .b0, map := .m0, acceptStale := false,
                   dither := false, keyEnA := false, keyEnR := false, keyEnG := false,
                   keyEnB := false, keyLo := { a := 0, r := 0, g := 0, b := 0 },
                   keyHi := { a := 0, r := 0, g := 0, b := 0 }, edgeEn := false, edgeAlpha := 0,
                   lanes := { lane0 := .b, lane1 := .g, lane2 := .r, lane3 := .a }, segLen := 0,
                   stallLimit := 0 }
          jobCount := 0, jobWidth := 0, jobs := [], state := .idle, segment := 0, tag := 0,
          lastFault := none, inFifo := [], outFifo := [], stall := 0
          path := { next := 0, inWord := none, held := none, outWord := none, done := 0 } }) ∧
      t.eq = { urgent := [], routine := [], claim := none, stamp := 0, threshold := s.eq.threshold,
               timeout := s.eq.timeout, timer := 0, overdue := false, lastServed := .ch2 } ∧
      t.hostFaults = 0 ∧ t.enables = en ∧ t.timebase = s.timebase ∧
      t.scanout = { s.scanout with
        state := if e then (if s.scanout.state = .off then .armed else s.scanout.state) else .off } ∧
      t.bus = s.bus ∧ t.freeCount = s.freeCount ∧ t.pending = s.pending

/-- An ENG_CTRL write sets all three interrupt enables, and with the scanout enable it arms an OFF unit
and leaves one that is ARMED or ON; the rows INTERRUPT_ENABLES, SCANOUT_ENABLE, SCANOUT_DISABLE and
SOFT_RESET of one written word are the same event (R156, R179). -/
def Obligations.EngCtrlWriteSetsTheEnablesAndArmsScanout : Prop :=
  (∀ (en : IrqEnables) (s : State), s.port.stretched = false →
    exec (.scanoutEnable false en) s = .next { s with
      enables := en
      scanout := { s.scanout with
        state := if s.scanout.state = .off then .armed else s.scanout.state } } ∧
    exec (.scanoutEnable true en) s = exec (.softReset true en) s) ∧
  (∀ (r e : Bool) (en : IrqEnables) (s : State), s.port.stretched = false →
    ∃ t, exec (.interruptEnables r e en) s = .next t ∧ t.enables = en ∧
      (r = true → exec (.softReset e en) s = .next t) ∧
      (e = true → exec (.scanoutEnable r en) s = .next t) ∧
      (e = false → exec (.scanoutDisable r en) s = .next t))

/-- A disable takes the unit OFF; the bank that loses the display role is judged as a non-display bank:
with sealed records pending and no hold its commit is taken, or deferred when it asks for notice and
the event queue has no room (R156, R51, R54). -/
def Obligations.ScanoutDisableJudgesTheFormerDisplayBank : Prop :=
  ∀ (en : IrqEnables) (s u : State), s.port.stretched = false →
    u = { s with enables := en, scanout := { s.scanout with state := .off } } →
    (s.scanout.state ≠ .on → exec (.scanoutDisable false en) s = .next u) ∧
    (s.scanout.state = .on →
      (s.commitOf s.scanout.current ≠ .pending ∨ (s.bank s.scanout.current).holders ≠ 0 →
        exec (.scanoutDisable false en) s = .next u.lookForBuild) ∧
      (s.commitOf s.scanout.current = .pending → (s.bank s.scanout.current).holders = 0 →
        (s.uq.asksNotice s.scanout.current = false ∨ s.eq.hasRoom .routine = true →
          exec (.scanoutDisable false en) s = .next (u.commit s.scanout.current).lookForBuild) ∧
        (s.uq.asksNotice s.scanout.current = true → s.eq.hasRoom .routine = false →
          exec (.scanoutDisable false en) s =
            .next (u.setCommit s.scanout.current .deferred).lookForBuild))) ∧
    exec (.scanoutDisable true en) s = exec (.softReset false en) s

/-- IRQ is asserted exactly while one of its four conditions holds; a full reset clears the enables and
both resets leave it deasserted; the soft reset keeps the enables; a read that claims leaves it as it
was (R171). -/
def Obligations.IrqFollowsItsFourConditions : Prop :=
  (∀ s : State, s.irq = true ↔
    (0 < s.eq.urgent.length ∧ s.enables.urg = true) ∨
      (s.eq.threshold.toNat ≤ s.eq.routine.length ∧ s.enables.rtn = true) ∨
      (s.eq.overdue = true ∧ s.enables.rtn = true) ∨
      ((∃ f : HostFault, s.flagged f = true) ∧ s.enables.flt = true)) ∧
  (∀ s t : State, exec .fullReset s = .next t →
    t.irq = false ∧ t.enables = { urg := false, rtn := false, flt := false }) ∧
  (∀ s : State, EventsOk s → s.softReset.irq = false ∧ s.softReset.enables = s.enables) ∧
  (∀ s t : State, exec .eqHead0 s = .next t → t.irq = s.irq) ∧
  (∀ s t : State, exec .eqHead1 s = .next t → t.irq = s.irq)

/-- Setting a host-fault flag leaves the others; a write to HOST_FAULTS clears the flags whose bits are
written as 1 and leaves the rest; a read returns the flags at their bits. A flag that is set stays set
over every step that takes no write to HOST_FAULTS, no full reset and no ENG_CTRL write with the soft
reset (R178). -/
def Obligations.HostFaultFlagsAreSticky : Prop :=
  (∀ (s : State) (f : HostFault), s.flag f = { s with hostFaults := (s.flag f).hostFaults } ∧
    ∀ g, (s.flag f).flagged g = (s.flagged g || decide (g = f))) ∧
  (∀ (v : Word) (s : State), s.port.stretched = false →
    ∃ t, exec (.hostFaults v) s = .next t ∧ t = { s with hostFaults := t.hostFaults } ∧
      ∀ f : HostFault, t.flagged f = (s.flagged f && !bitAt v f.bit)) ∧
  (∀ s : State, ∃ w : Word, s.registerWord .hostFaults = some w ∧
    (∀ f : HostFault, bitAt w f.bit = s.flagged f) ∧ ∀ i, 10 ≤ i → bitAt w i = false) ∧
  (∀ (s t : State) (f : HostFault),
    (∀ i rest, s.pending = i :: rest → clearsHostFaults i = false) → step s = .next t →
    s.flagged f = true → t.flagged f = true)

/-- An invalid access and an access of the wrong type reach no block: they set BAD_ACCESS, a read of
that kind returns 0, and nothing else changes (R176, R177). While a read is stretched no host access
takes effect (R67, R176): that an access the queue gives in the meantime is dropped, and not kept for
later, is the model's choice (log 4). -/
def Obligations.AccessesThatReachNoBlock : Prop :=
  (∀ (width offset : Nat) (s : State), s.port.stretched = false → accessReg width offset = none →
    exec (.invalidAccess true width offset) s = .next { s with hostFaults := s.hostFaults ||| 1 } ∧
    exec (.invalidAccess false width offset) s = .next { s with
      hostFaults := s.hostFaults ||| 1, bus := { s.bus with readData := 0 } }) ∧
  (∀ (r : Reg) (s : State), s.port.stretched = false →
    (r.writable = false →
      exec (.wrongTypeAccess true r) s = .next { s with hostFaults := s.hostFaults ||| 1 }) ∧
    (r.readable = false →
      exec (.wrongTypeAccess false r) s = .next { s with
        hostFaults := s.hostFaults ||| 1, bus := { s.bus with readData := 0 } })) ∧
  (∀ (i : Instr) (a : HostAccess) (s : State), accessOf i = some a → s.port.stretched = true →
     exec i s = .next s)

/-- A write of BLD_REQ0, BLD_REQ1, JOB_COUNT or JOB_WIDTH is never refused: it replaces the values the
register holds, which a read then returns with 0 at the bits without a field, and changes nothing else
(R93, R113). A write of TICK_DIV is refused when it is 0, and otherwise sets the divider, which a read
then returns, and restarts the count (R182). -/
def Obligations.PlainRegisterWritesReplaceTheHeldValue : Prop :=
  ∀ (v : Word) (s : State), s.port.stretched = false →
    (∃ t, exec (.registerWrite .bldReq0 v) s = .next t ∧
      t = { s with engine := { s.engine with regs := t.engine.regs } } ∧
      t.registerWord .bldReq0 = some (v &&& 0x0013FFFF) ∧
      t.registerWord .bldReq1 = s.registerWord .bldReq1) ∧
    (∃ t, exec (.registerWrite .bldReq1 v) s = .next t ∧
      t = { s with engine := { s.engine with regs := t.engine.regs } } ∧
      t.registerWord .bldReq1 = some (v &&& 0x00FFBFFF) ∧
      t.registerWord .bldReq0 = s.registerWord .bldReq0) ∧
    (∀ c, ∃ t, exec (.registerWrite (.jobCount c) v) s = .next t ∧
      t = s.setChan c { s.chan c with jobCount := (t.chan c).jobCount } ∧
      (t.chan c).jobCount.toNat = v.toNat % 2 ^ 20 ∧
      t.registerWord (.jobCount c) = some (v &&& 0x000FFFFF)) ∧
    (∀ c, ∃ t, exec (.registerWrite (.jobWidth c) v) s = .next t ∧
      t = s.setChan c { s.chan c with jobWidth := (t.chan c).jobWidth } ∧
      (t.chan c).jobWidth.toNat = v.toNat % 2 ^ 13 ∧
      t.registerWord (.jobWidth c) = some (v &&& 0x00001FFF)) ∧
    (v.toNat % 2 ^ 16 = 0 →
      exec (.tickDiv v) s = .next { s with hostFaults := s.hostFaults ||| 2 }) ∧
    (v.toNat % 2 ^ 16 ≠ 0 → ∃ t, exec (.tickDiv v) s = .next t ∧
      t = { s with timebase := t.timebase } ∧ t.timebase.div.toNat = v.toNat % 2 ^ 16 ∧
      t.timebase.count = 0 ∧ t.registerWord .tickDiv = some (v &&& 0x0000FFFF))

/-- Every register has one offset, a multiple of 4 in the window; the offsets that name a register are
those of the registers, and an access reaches a register exactly when it is 32 bits wide at such an
offset. The access that a well-formed command spells decodes to a well-formed command; an access that
decodes to none is a valid read of a register whose read changes nothing (R176, R177). -/
def Obligations.WindowDecodesEveryAccess : Prop :=
  (∀ r : Reg, regAt r.offset = some r ∧ r.offset % 4 = 0 ∧ r.offset < windowBytes) ∧
  (∀ (width offset : Nat) (r : Reg),
    accessReg width offset = some r ↔ width = 32 ∧ r.offset = offset) ∧
  (∀ a : HostAccess, a.offset < windowBytes →
    (∀ i, decodeAccess a = some i → i.wf = true) ∧
    (decodeAccess a = none → a.write = false ∧ ∃ r : Reg, a.width = 32 ∧ a.offset = r.offset ∧
      r.readable = true ∧ ∀ s : State, (s.registerWord r).isSome = true))

/-- The access that spells a well-formed command decodes to that command; for an ENG_CTRL write, which
is one event under any of its four rows, to one of the same effect in every state (R176, R177, R179,
Tables 11-1, 11-3, 11-6 and 11-9). -/
def Obligations.AccessDecodingGivesTheCommandBack : Prop :=
  ∀ (i : Instr) (a : HostAccess), i.wf = true → accessOf i = some a →
    decodeAccess a = some i ∨
      (a = writeOf .engCtrl a.value ∧ ∃ j, decodeAccess a = some j ∧ ∀ s, exec j s = exec i s)

/-! ## The scanout unit (chapter 9) -/

/-- A frame start advances the counter, and does no more in OFF. In ARMED and ON it gives the display
role to the next display bank, a DEFERRED one becoming PENDING; then the commit of the outgoing bank, at
a switch, and that of the display bank are attempted, in this order (R158, R50, R51, R54). So banks that
neither lose nor gain the role keep entries, generation and commit state; a display bank without sealed
records, or held, keeps entries and generation; and one with sealed records, no hold and no notice asked
for is committed. -/
def Obligations.FrameStartSettlesTheDisplayRole : Prop :=
  (∀ s u v : State,
    u = { s with scanout := { s.scanout with frame := s.scanout.frame + 1 } } →
    v = { s with
      scanout := { state := .on, current := s.scanout.next, next := s.scanout.next
                   frame := s.scanout.frame + 1 }
      uq := { s.uq with commit := if s.commitOf s.scanout.next = .deferred
        then s.uq.commit.set s.scanout.next .pending else s.uq.commit } } →
    (s.scanout.state = .off → exec .frameStart s = .next u) ∧
    (s.scanout.state = .armed →
      exec .frameStart s = .next (commitAttempt v s.scanout.next true).lookForBuild) ∧
    (s.scanout.state = .on → s.scanout.next = s.scanout.current →
      exec .frameStart s = .next (commitAttempt u s.scanout.current true).lookForBuild) ∧
    (s.scanout.state = .on → s.scanout.next ≠ s.scanout.current →
      exec .frameStart s = .next (commitAttempt (commitAttempt v s.scanout.current false)
        s.scanout.next true).lookForBuild)) ∧
  (∀ s t : State, exec .frameStart s = .next t → s.scanout.state ≠ .off →
    t.scanout.state = .on ∧ t.scanout.current = s.scanout.next ∧
    (∀ b, b ≠ s.scanout.next → (s.scanout.state = .armed ∨ b ≠ s.scanout.current) →
      (t.bank b).entries = (s.bank b).entries ∧ (t.bank b).generation = (s.bank b).generation ∧
        t.commitOf b = s.commitOf b) ∧
    (s.commitOf s.scanout.next = .none ∨ (s.bank s.scanout.next).holders ≠ 0 →
      (t.bank s.scanout.next).entries = (s.bank s.scanout.next).entries ∧
      (t.bank s.scanout.next).generation = (s.bank s.scanout.next).generation) ∧
    (CommitsAgree s → s.commitOf s.scanout.next ≠ .none → (s.bank s.scanout.next).holders = 0 →
      s.uq.asksNotice s.scanout.next = false →
      (t.bank s.scanout.next).entries =
          applyRecords (s.bank s.scanout.next).entries (s.uq.pendingSet s.scanout.next) ∧
        (t.bank s.scanout.next).generation = (s.bank s.scanout.next).generation + 1 ∧
        t.commitOf s.scanout.next = .none))

/-- When a switch reaches the commit points of both banks, both ask for notice and the event queue has
room for exactly one ROUTINE record, the outgoing bank's commit takes the place and the incoming bank
stays PENDING; the COMMIT record carries the advanced counter (R57, R158). -/
def Obligations.OutgoingBankCommitsBeforeTheIncoming : Prop :=
  ∀ s : State, CommitsAgree s → s.scanout.state = .on → s.scanout.next ≠ s.scanout.current →
    s.commitOf s.scanout.current = .pending → (s.bank s.scanout.current).holders = 0 →
    s.uq.asksNotice s.scanout.current = true →
    s.commitOf s.scanout.next ≠ .none → (s.bank s.scanout.next).holders = 0 →
    s.uq.asksNotice s.scanout.next = true → s.eq.hasRoom .routine = true →
    (s.eq.urgent.length + s.eq.routine.length = 31 ∨ s.eq.routine.length = 23) →
    ∃ t, exec .frameStart s = .next t ∧
      t.commitOf s.scanout.current = .none ∧
      (t.bank s.scanout.current).generation = (s.bank s.scanout.current).generation + 1 ∧
      t.commitOf s.scanout.next = .pending ∧
      (t.bank s.scanout.next).entries = (s.bank s.scanout.next).entries ∧
      (t.bank s.scanout.next).generation = (s.bank s.scanout.next).generation ∧
      t.eq.urgent = s.eq.urgent ∧
      t.eq.routine = s.eq.routine ++
        [{ record := commitRecordOf s.scanout.current
             ((s.bank s.scanout.current).generation + 1) (s.scanout.frame + 1)
           stamp := s.eq.stamp }]

/-- A lookup returns the entry of the current display bank in ON and (0, 0, 0, 0) in OFF and ARMED, and
changes nothing (R160). A write to SCN_CTRL sets the next display bank and nothing else, and a read
returns it (R157). -/
def Obligations.LookupsAndTheNextDisplayBank : Prop :=
  (∀ (i : Byte) (s : State), ∃ w : Word,
    exec (.lookup i) s = .next { s with bus := { s.bus with lookupData := w } } ∧
    Entry.ofWord w = if s.scanout.state = .on
      then Palette.read (s.bank s.scanout.current).entries i.toNat
      else { a := 0, r := 0, g := 0, b := 0 }) ∧
  (∀ (v : Word) (s : State), s.port.stretched = false → ∃ t,
    exec (.scnCtrl v) s = .next t ∧
    t = { s with scanout := { s.scanout with next := t.scanout.next } } ∧
    t.scanout.next.code.toNat = v.toNat % 4 ∧ t.registerWord .scnCtrl = some (v &&& 3))

/-- Between frame starts, with the unit ON before and after, no command but a full reset changes which
bank is displayed, its entries or its generation (R23, R24, R32, R160). -/
def Obligations.DisplayBankIsStableBetweenFrameStarts : Prop :=
  ∀ (i : Instr) (s t : State), CommitsAgree s → i ≠ .frameStart → i ≠ .fullReset →
    exec i s = .next t → s.scanout.state = .on → t.scanout.state = .on →
    t.scanout.current = s.scanout.current ∧
      (t.bank s.scanout.current).entries = (s.bank s.scanout.current).entries ∧
      (t.bank s.scanout.current).generation = (s.bank s.scanout.current).generation

/-! ## Commits (chapters 2 and 3) -/

/-- The commit event of a bank: each entry takes the colour of the last record in staging order that
covers it and is otherwise unchanged, the generation advances by 1, the applied records leave, the
commit state is NONE, one COMMIT record is inserted if an applied record carries notify, maps and port
take their notices, waiting channels are woken, and nothing else changes (R30, R53, R25, R120). -/
def Obligations.CommitEventAppliesThePendingSet : Prop :=
  ∀ (s t : State) (b : BankId), Palette.wf (s.bank b).entries = true →
    (∀ r ∈ s.uq.records, RecordOk r) → t = s.commit b →
    (∀ i, Palette.read (t.bank b).entries i =
      match (s.uq.pendingSet b).reverse.find? fun r =>
          decide (r.start.toNat ≤ i ∧ i < r.start.toNat + r.count) with
      | some r => r.colours.getD (i - r.start.toNat) { a := 0, r := 0, g := 0, b := 0 }
      | none => Palette.read (s.bank b).entries i) ∧
    (t.bank b).generation = (s.bank b).generation + 1 ∧ (t.bank b).holders = (s.bank b).holders ∧
    (∀ b', b' ≠ b → t.bank b' = s.bank b' ∧ t.commitOf b' = s.commitOf b') ∧
    t.commitOf b = .none ∧
    t.uq.records = (s.uq.records.filter fun r => decide (r.bank ≠ b ∨ r.state ≠ .sealed)) ∧
    t.eq = (if (s.uq.pendingSet b).any (fun r => r.notify)
      then s.eq.insert (commitRecordOf b ((s.bank b).generation + 1) s.scanout.frame) else s.eq) ∧
    (∀ m, t.map m = mapAfterChange (s.map m) b) ∧ t.port = portAfterChange s.port (.bank b) ∧
    t.engine = { s.engine with requests := t.engine.requests } ∧
    RequestsAfterChange s b t.engine.requests ∧ (∀ c, t.chan c = chanAfterCommit (s.chan c) b) ∧
    t.scanout = s.scanout ∧ t.hostFaults = s.hostFaults ∧ t.enables = s.enables ∧
    t.timebase = s.timebase ∧ t.bus = s.bus ∧ t.pending = s.pending

/-- SEAL marks every CLOSED record of the bank SEALED with its notify value and does nothing when there
is none; a bank without display role and holds then has its commit taken, or deferred when the pending
set asks for notice and the event queue has no room; any other waits (R43, R44, R49, R54, R56). -/
def Obligations.SealMarksRecordsAndMayCommit : Prop :=
  ∀ (b : BankId) (n : Bool) (s u : State), s.port.stretched = false →
    u = { s with uq :=
      { records := s.uq.records.map fun r =>
          if r.bank = b ∧ r.state = .closed then { r with state := .sealed, notify := n } else r
        commit := s.uq.commit.set b (if s.commitOf b = .none then .pending else s.commitOf b) } } →
    ((∀ r ∈ s.uq.records, ¬(r.bank = b ∧ r.state = .closed)) →
      exec (.stgCmdSeal b n) s = .next s) ∧
    ((∃ r ∈ s.uq.records, r.bank = b ∧ r.state = .closed) →
      (s.commitOf b = .deferred ∨ (s.bank b).holders ≠ 0 ∨ s.hasRole b = true →
        exec (.stgCmdSeal b n) s = .next u.lookForBuild) ∧
      (s.commitOf b ≠ .deferred → (s.bank b).holders = 0 → s.hasRole b = false →
        (u.uq.asksNotice b = false ∨ s.eq.hasRoom .routine = true →
          exec (.stgCmdSeal b n) s = .next (u.commit b).lookForBuild) ∧
        (u.uq.asksNotice b = true → s.eq.hasRoom .routine = false →
          exec (.stgCmdSeal b n) s = .next (u.setCommit b .deferred).lookForBuild)))

/-- The release of a bank hold lowers the holder count by 1; when it reaches 0 on a bank with sealed
records and no display role, the commit is taken, or deferred when it asks for notice and the event
queue has no room; otherwise only the count changes (R17, R19, R49, R54). -/
def Obligations.LastReleaseReachesTheCommitPoint : Prop :=
  ∀ (s u : State) (b : BankId),
    u = s.setBank b { s.bank b with holders := (s.bank b).holders - 1 } →
    ((s.commitOf b ≠ .pending ∨ 1 < (s.bank b).holders ∨ s.hasRole b = true) →
      s.releaseBank b = u) ∧
    (s.commitOf b = .pending → (s.bank b).holders = 1 → s.hasRole b = false →
      (s.uq.asksNotice b = false ∨ s.eq.hasRoom .routine = true → s.releaseBank b = u.commit b) ∧
      (s.uq.asksNotice b = true → s.eq.hasRoom .routine = false →
        s.releaseBank b = u.setCommit b .deferred))

/-- A write to STG_HDR with no record OPEN is refused on its count, its run or the capacity in use, and
otherwise opens a record at the end of the staging order (R39). One that finds a record OPEN first
discards it with STAGE_REFUSED and is then judged without it (R40). A write to STG_DATA appends the
written entry to the OPEN record, which is CLOSED when that fills it, and with no record OPEN is dropped
with STAGE_REFUSED (R41). -/
def Obligations.StagingOpensAndFillsRecords : Prop :=
  (∀ (v : Word) (s : State), s.port.stretched = false →
    (∀ r ∈ s.uq.records, r.state ≠ .opened) →
    ((v.toNat / 256 % 16 = 0 ∨ 8 < v.toNat / 256 % 16 ∨
        255 < v.toNat % 256 + v.toNat / 256 % 16 - 1 ∨ 32 ≤ s.uq.records.length ∨
        128 < (s.uq.records.map fun r => r.count).sum + v.toNat / 256 % 16) →
      exec (.stgHdr v) s = .next { s with hostFaults := s.hostFaults ||| 4 }) ∧
    (¬(v.toNat / 256 % 16 = 0 ∨ 8 < v.toNat / 256 % 16 ∨
        255 < v.toNat % 256 + v.toNat / 256 % 16 - 1 ∨ 32 ≤ s.uq.records.length ∨
        128 < (s.uq.records.map fun r => r.count).sum + v.toNat / 256 % 16) →
      ∃ r : UpdateRecord,
        exec (.stgHdr v) s = .next { s with uq := { s.uq with records := s.uq.records ++ [r] } } ∧
        r.bank.code.toNat = v.toNat / 65536 % 4 ∧ r.start.toNat = v.toNat % 256 ∧
        r.count = v.toNat / 256 % 16 ∧ r.colours = [] ∧ r.state = .opened)) ∧
  (∀ (v : Word) (s : State) (before after : List UpdateRecord) (r : UpdateRecord),
    s.port.stretched = false → s.uq.records = before ++ r :: after → r.state = .opened →
    (∀ q ∈ before ++ after, q.state ≠ .opened) →
    exec (.stgHdr v) s = exec (.stgHdr v) { s with
      uq := { s.uq with records := before ++ after }, hostFaults := s.hostFaults ||| 4 }) ∧
  (∀ (v : Word) (s : State), s.port.stretched = false →
     ((∀ r ∈ s.uq.records, r.state ≠ .opened) →
       exec (.stgData v) s = .next { s with hostFaults := s.hostFaults ||| 4 }) ∧
     (∀ (before after : List UpdateRecord) (r : UpdateRecord),
       s.uq.records = before ++ r :: after → r.state = .opened →
       (∀ q ∈ before ++ after, q.state ≠ .opened) →
       exec (.stgData v) s = .next { s with uq := { s.uq with records := before ++
         { r with
           colours := r.colours ++ [Entry.ofWord v]
           state := if r.colours.length + 1 = r.count then .closed else .opened } :: after } }))

/-- DISCARD removes the OPEN and CLOSED records of its bank and leaves every other in its order (R46). A
write to STG_CMD, BLD_CMD or CH_CMD with another command code is ignored with CMD_IGNORED (R47, R107,
R135); the bank field names banks 0 to 3, and DISCARD does not read the notify field (R47). -/
def Obligations.DiscardAndUnknownCommands : Prop :=
  (∀ (b : BankId) (s : State), s.port.stretched = false →
    exec (.stgCmdDiscard b) s = .next { s with uq := { s.uq with
      records := s.uq.records.filter fun r => decide (¬(r.bank = b ∧ r.state ≠ .sealed)) } }) ∧
  (∀ v : Word,
    (v.toNat % 4 = 1 → ∃ b, b.code.toNat = v.toNat / 16 % 4 ∧
      decodeAccess (writeOf .stgCmd v) = some (.stgCmdSeal b (decide (v.toNat / 256 % 2 = 1)))) ∧
    (v.toNat % 4 = 2 → ∃ b, b.code.toNat = v.toNat / 16 % 4 ∧
      decodeAccess (writeOf .stgCmd v) = some (.stgCmdDiscard b)) ∧
    (v.toNat % 4 = 0 ∨ v.toNat % 4 = 3 → ∃ code,
      decodeAccess (writeOf .stgCmd v) = some (.stgCmdIgnored code) ∧
      decodeAccess (writeOf .bldCmd v) = some (.bldCmdIgnored code)) ∧
    (v.toNat % 4 = 0 → ∀ c, ∃ code,
      decodeAccess (writeOf (.chCmd c) v) = some (.chCmdIgnored c code))) ∧
  (∀ (code : BitVec 2) (c : Chan) (s : State), s.port.stretched = false →
    exec (.stgCmdIgnored code) s = .next { s with hostFaults := s.hostFaults ||| 512 } ∧
    exec (.bldCmdIgnored code) s = .next { s with hostFaults := s.hostFaults ||| 512 } ∧
    exec (.chCmdIgnored c code) s = .next { s with hostFaults := s.hostFaults ||| 512 })

/-- A bank's entries and generation change together: an event other than a full reset leaves both, or
advances the generation by exactly 1, and that only for a bank with sealed records, at a SEAL of the
bank, or at a direct write to it (R14, R24). -/
def Obligations.GenerationCountsEveryChangeOfABank : Prop :=
  ∀ (i : Instr) (s t : State) (b : BankId), i ≠ .fullReset → exec i s = .next t →
    ((t.bank b).entries = (s.bank b).entries ∧ (t.bank b).generation = (s.bank b).generation) ∨
    ((t.bank b).generation = (s.bank b).generation + 1 ∧
      (s.sealedPending b = true ∨ (∃ n, i = .stgCmdSeal b n) ∨
        (∃ v, i = .apDataWrite v) ∧ s.port.target = .bank b))

/-! ## The access port (chapter 4) -/

/-- A direct write to a bank with no holds, no display role and no sealed records sets one entry to the
written components, advances the generation by 1, gives the notices of change and moves the index on
with no item kept (R26, R27, R69). -/
def Obligations.AcceptedDirectWriteChangesOneEntry : Prop :=
  ∀ (v : Word) (s : State) (b : BankId), s.port.stretched = false → s.port.target = .bank b →
    (s.bank b).holders = 0 → s.hasRole b = false → s.sealedPending b = false →
    Palette.wf (s.bank b).entries = true →
    ∃ u : State, exec (.apDataWrite v) s = .next u.lookForBuild ∧
      (∀ i, Palette.read (u.bank b).entries i =
        if i = s.port.index
        then { a := BitVec.ofNat 8 (v.toNat / 2 ^ 24), r := BitVec.ofNat 8 (v.toNat / 2 ^ 16)
               g := BitVec.ofNat 8 (v.toNat / 2 ^ 8), b := BitVec.ofNat 8 v.toNat }
        else Palette.read (s.bank b).entries i) ∧
      (u.bank b).generation = (s.bank b).generation + 1 ∧ (u.bank b).holders = 0 ∧
      (∀ b', b' ≠ b → u.bank b' = s.bank b') ∧ (∀ m, u.map m = mapAfterChange (s.map m) b) ∧
      u.engine = { s.engine with requests := u.engine.requests } ∧
      RequestsAfterChange s b u.engine.requests ∧
      u.port = { s.port with index := (s.port.index + 1) % 256, items := [], filling := true } ∧
      u.uq = s.uq ∧ u.channels = s.channels ∧ u.scanout = s.scanout ∧ u.eq = s.eq ∧
      u.hostFaults = s.hostFaults ∧ u.enables = s.enables ∧ u.timebase = s.timebase ∧
      u.bus = s.bus ∧ u.pending = s.pending

/-- A write to AP_ADDR is refused for target 6 or 7, or for a bank and an index above 255, with
ACCESS_REFUSED and nothing else changed; otherwise it sets target and index, discards every item and
begins a fill; a read returns target and index (R60). A write of AP_DATA to a map, and a direct write to
a bank with a hold, the display role or sealed records, is refused: ACCESS_REFUSED is set, the index
advances past its item, the item for the new index stays, a fill is in progress, and nothing else
changes (R26, R28, R61, R69, R70). -/
def Obligations.PortJudgesAddressesAndWrites : Prop :=
  (∀ (v : Word) (s : State), s.port.stretched = false →
    ((6 ≤ v.toNat / 65536 % 8 ∨ v.toNat / 65536 % 8 < 4 ∧ 255 < v.toNat % 512) →
      exec (.apAddr v) s = .next { s with hostFaults := s.hostFaults ||| 8 }) ∧
    (¬(6 ≤ v.toNat / 65536 % 8 ∨ v.toNat / 65536 % 8 < 4 ∧ 255 < v.toNat % 512) →
      ∃ x, exec (.apAddr v) s = .next { s with
        port := { target := x, index := v.toNat % 512, items := [], filling := true,
                  stretched := false } } ∧
        x.code.toNat = v.toNat / 65536 % 8)) ∧
  (∀ s : State, s.port.index < 512 → ∃ w, s.registerWord .apAddr = some w ∧
    w.toNat = s.port.index + 65536 * s.port.target.code.toNat) ∧
  (∀ (v : Word) (s : State), s.port.stretched = false →
     (∀ m, s.port.target = .map m →
       exec (.apDataWrite v) s = .next { s with
         port := { s.port with index := (s.port.index + 1) % 512, items := s.port.items.drop 1,
                               filling := true }
         hostFaults := s.hostFaults ||| 8 }) ∧
     (∀ b, s.port.target = .bank b →
       ((s.bank b).holders ≠ 0 ∨ s.hasRole b = true ∨ s.sealedPending b = true) →
       exec (.apDataWrite v) s = .next { s with
         port := { s.port with index := (s.port.index + 1) % 256, items := s.port.items.drop 1,
                               filling := true }
         hostFaults := s.hostFaults ||| 8 }))

/-- A read of AP_DATA returns the item for the current index, moves on and begins a fill, or is
stretched with a fill in progress (R64, R67). A fetch completion takes its item from the target as it
stands: it ends a stretched read, or makes the first item present, or the second, which ends the fill
(R63, R67). -/
def Obligations.ReadsAndFetchesMoveThePrefetch : Prop :=
  (∀ s : State, s.port.stretched = false →
    (∀ x rest, s.port.items = x :: rest →
      exec .apDataRead s = .next { s with
        port := { s.port with index := (s.port.index + 1) % s.port.target.positions, items := rest,
                              filling := true }
        bus := { s.bus with readData := x } }) ∧
    (s.port.items = [] → exec .apDataRead s = .next { s with
      port := { s.port with filling := true, stretched := true } })) ∧
  (∀ s : State, s.port.filling = true →
    (s.port.items = [] → s.port.stretched = true → exec .fetchCompletion s = .next { s with
      port := { s.port with index := (s.port.index + 1) % s.port.target.positions,
                            stretched := false }
      bus := { s.bus with readData := s.item s.port.target s.port.index } }) ∧
    (s.port.items = [] → s.port.stretched = false → exec .fetchCompletion s = .next { s with
      port := { s.port with items := [s.item s.port.target s.port.index] } }) ∧
    (∀ x, s.port.items = [x] → exec .fetchCompletion s = .next { s with
      port := { s.port with
        items := [x, s.item s.port.target ((s.port.index + 1) % s.port.target.positions)]
        filling := false } }))

/-! ## The build engine (chapters 5 and 6) -/

/-- BLD_CMD REQUEST is refused with BUILD_REFUSED for a map that is BUILDING or requested, for a range
whose first is above its last, and for a dimension outside 2 to 8; otherwise the request, with the
parameters the registers hold, joins the end of the list (R93, R94). -/
def Obligations.BuildRequestIsJudged : Prop :=
  ∀ (s : State) (g : BuildRegs), s.port.stretched = false → g = s.engine.regs →
    (((s.map g.map).state = .building ∨ (∃ q ∈ s.engine.requests, q.map = g.map) ∨
        g.last.toNat < g.first.toNat ∨ ∃ d ∈ [g.nr, g.ng, g.nb], d.toNat < 2 ∨ 8 < d.toNat) →
      exec .bldCmdRequest s = .next { s with hostFaults := s.hostFaults ||| 256 }) ∧
    (¬((s.map g.map).state = .building ∨ (∃ q ∈ s.engine.requests, q.map = g.map) ∨
        g.last.toNat < g.first.toNat ∨ ∃ d ∈ [g.nr, g.ng, g.nb], d.toNat < 2 ∨ 8 < d.toNat) →
      ∃ u : State, exec .bldCmdRequest s = .next u.lookForBuild ∧
        u = { s with engine := { s.engine with requests := s.engine.requests ++
          [{ map := g.map
             params := { source := g.source, nr := g.nr.toNat, ng := g.ng.toNat, nb := g.nb.toNat,
                         first := g.first, last := g.last, skipTransparent := g.skipTransparent,
                         transparent := if g.transparentPresent then some g.transparentValue else none,
                         autoRebuild := g.autoRebuild } }] } })

/-- An IDLE engine starts the oldest request whose map has no holder and whose source bank has no sealed
records: the request leaves the list, the map is BUILDING with its parameters and no valid cell, the
bank is held, and the port is told (R97, R98). With no eligible entry the build ends in the same event:
the map is EMPTY, the bank released, the engine in POST with NO_CANDIDATES, the waiting channels woken
(R99). -/
def Obligations.BuildStartTakesTheOldestStartableRequest : Prop :=
  (∀ (s : State) (before after : List BuildRequest) (r : BuildRequest),
    s.engine.state = .idle → s.engine.requests = before ++ r :: after →
    (s.engine.requests.map fun q => q.map).Nodup →
    (s.map r.map).holders = 0 → s.commitOf r.params.source = .none →
    (∀ q ∈ before, (s.map q.map).holders ≠ 0 ∨ s.commitOf q.params.source ≠ .none) →
    ∃ t, exec .buildStart s = .next t ∧
      t = { s with banks := t.banks, maps := t.maps, port := t.port, engine := t.engine,
                   channels := t.channels } ∧
      (∀ m, m ≠ r.map → t.map m = s.map m) ∧ t.port = portAfterChange s.port (.map r.map) ∧
      (r.params.eligible (s.bank r.params.source).entries ≠ [] →
        t.engine = { s.engine with state := .building, current := r.map, progress := 0,
                                   requests := before ++ after } ∧
        t.map r.map = { s.map r.map with state := .building, params := r.params, cells := [] } ∧
        (∀ b, t.bank b = { s.bank b with
          holders := (s.bank b).holders + if b = r.params.source then 1 else 0 }) ∧
        t.channels = s.channels) ∧
      (r.params.eligible (s.bank r.params.source).entries = [] →
        t.engine = { s.engine with
          state := .post { kind := .buildFault, cls := .urgent, source := r.map.code.setWidth 2,
                           tag := 0, detail1 := 5, detail2 := 0 }
          current := r.map, progress := 0, requests := before ++ after } ∧
        t.map r.map = { s.map r.map with state := .empty, params := r.params, cells := [] } ∧
        (∀ b, t.bank b = s.bank b) ∧ ∀ c, t.chan c = chanAfterBuild (s.chan c) r.map))

/-- A cell completion that is not the last writes the next cell with what the search of the source bank
finds, raises progress by 1 and tells the port, and nothing else changes (R100, R101). -/
def Obligations.CellCompletionWritesTheSearchResult : Prop :=
  ∀ (s : State) (m : MapId), s.engine.state = .building → s.engine.current = m →
    s.engine.progress + 1 < (s.map m).params.cellCount →
    (s.map m).params.eligible (s.bank (s.map m).params.source).entries ≠ [] →
    ∃ t cell, exec .cellCompletion s = .next t ∧
      IsSearchResult (s.map m).params (s.bank (s.map m).params.source).entries s.engine.progress cell ∧
      t = { s with maps := t.maps, engine := { s.engine with progress := s.engine.progress + 1 },
                   port := portAfterChange s.port (.map m) } ∧
      t.map m = { s.map m with cells := (s.map m).cells ++ [cell] } ∧
      ∀ m', m' ≠ m → t.map m' = s.map m'

/-- The last cell completes the build: the map is READY with its generation advanced and its waiting
channels woken, the bank's hold is released, which may reach its commit point, and the engine is in
POST with a BUILD_DONE record of both generations (R102, R103). -/
def Obligations.LastCellCompletesTheBuild : Prop :=
  ∀ (s : State) (m : MapId) (b : BankId), s.engine.state = .building → s.engine.current = m →
    (s.map m).params.source = b → s.engine.progress + 1 = (s.map m).params.cellCount →
    (s.map m).params.eligible (s.bank b).entries ≠ [] →
    ∃ (u : State) (cell : Cell),
      exec .cellCompletion s = .next ((u.releaseBank b).enginePosts
        { kind := .buildDone, cls := .routine, source := m.code.setWidth 2, tag := 0,
          detail1 := ((s.map m).generation + 1).toNat, detail2 := (s.bank b).generation.toNat }) ∧
      IsSearchResult (s.map m).params (s.bank b).entries s.engine.progress cell ∧
      u = { s with maps := u.maps, channels := u.channels
                   engine := { s.engine with progress := s.engine.progress + 1 }
                   port := portAfterChange s.port (.map m) } ∧
      u.map m = { s.map m with state := .ready, generation := (s.map m).generation + 1,
                               cells := (s.map m).cells ++ [cell] } ∧
      (∀ m', m' ≠ m → u.map m' = s.map m') ∧ ∀ c, u.chan c = chanAfterBuild (s.chan c) m

/-- BLD_CMD ABORT of a BUILDING map stops the build: the map is EMPTY, its channels are woken, the port
is told, the engine is in POST with ABORTED and its progress kept, and the bank is released (R105). Of a
pending request, with the abort slot empty, it removes the request and inserts the record, or puts it
in the slot when the queue is full (R106). Otherwise it is ignored with CMD_IGNORED (R106, R107). -/
def Obligations.AbortStopsTheBuildOrRemovesTheRequest : Prop :=
  ∀ (m : MapId) (s : State) (r : EventRecord), s.port.stretched = false →
    r = { kind := .buildFault, cls := .urgent, source := m.code.setWidth 2, tag := 0, detail1 := 3,
          detail2 := 0 } →
    ((s.map m).state = .building → ∃ u : State,
      exec (.bldCmdAbort m) s = .next (u.releaseBank (s.map m).params.source) ∧
      u = { s with maps := u.maps, channels := u.channels
                   engine := { s.engine with state := .post r }
                   port := portAfterChange s.port (.map m) } ∧
      u.map m = { s.map m with state := .empty, cells := [] } ∧
      (∀ m', m' ≠ m → u.map m' = s.map m') ∧ ∀ c, u.chan c = chanAfterBuild (s.chan c) m) ∧
    ((s.map m).state ≠ .building → s.buildPending m = true → s.engine.abortSlot = none →
      ∃ t, exec (.bldCmdAbort m) s = .next t ∧
        t = { s with
          eq := if s.eq.urgent.length + s.eq.routine.length < 32 then s.eq.insert r else s.eq
          engine := { s.engine with
            requests := s.engine.requests.filter fun q => decide (q.map ≠ m)
            abortSlot := if s.eq.urgent.length + s.eq.routine.length < 32 then none else some r }
          channels := t.channels } ∧
        ∀ c, t.chan c = chanAfterBuild (s.chan c) m) ∧
    ((s.map m).state ≠ .building → (s.buildPending m = false ∨ s.engine.abortSlot ≠ none) →
      exec (.bldCmdAbort m) s = .next { s with hostFaults := s.hostFaults ||| 512 })

/-! ## The reduction of a colour (chapter 5) -/

/-- The bins of a component are those of Table 5-3, each colour falls in a cell below the cell count
whose centre is made of the centres of its bins, and every cell is the cell of some colour (R75, R76). -/
def Obligations.CellsDivideTheColourSpace : Prop :=
  (∀ (n : Nat) (c : Byte) (k : Nat), 2 ≤ n → n ≤ 8 → k < n →
    (binOf n c = k ↔ (k * 256 + n - 1) / n ≤ c.toNat ∧ c.toNat < ((k + 1) * 256 + n - 1) / n)) ∧
  (∀ (p : MapParams) (e : Entry), p.valid = true →
    p.cellOf e < p.cellCount ∧
    p.centre (p.cellOf e) =
      { r := (2 * binOf p.nr e.r + 1) * 128 / p.nr, g := (2 * binOf p.ng e.g + 1) * 128 / p.ng
        b := (2 * binOf p.nb e.b + 1) * 128 / p.nb }) ∧
  (∀ (p : MapParams) (i : Nat), p.valid = true → i < p.cellCount → ∃ e : Entry, p.cellOf e = i)

/-- An entry of alpha 0 reduces to the transparent index if the map has one; any other is reduced by its
cell, to best, or to second when dither is on, second is present and the threshold of its position is
below the weight; with dither on, each aligned block of 4 by 4 positions shows second as often as the
weight says (R88, R89). -/
def Obligations.ReductionShowsSecondByWeight : Prop :=
  (∀ (x : ReductionMap) (d : Bool) (e : Entry) (i j : Nat) (t : Byte), e.a = 0 →
    x.params.transparent = some t → x.reduce d e i j = t) ∧
  (∀ (x : ReductionMap) (d : Bool) (e : Entry) (i j : Nat) (c : Cell),
    (e.a ≠ 0 ∨ x.params.transparent = none) → x.cells[x.params.cellOf e]? = some c →
    x.reduce d e i j =
      match c.second with
      | none => c.best
      | some t =>
        if d = true ∧
            ([0, 8, 2, 10, 12, 4, 14, 6, 3, 11, 1, 9, 15, 7, 13, 5] : List Nat).getD (4 * (j % 4) + i % 4) 0 <
              c.weight
        then t else c.best) ∧
  (∀ (c : Cell) (t : Byte) (i j : Nat), c.second = some t → t ≠ c.best → c.weight ≤ 16 →
    ((List.range 16).filter fun p =>
      decide (c.choose true (4 * i + p % 4) (4 * j + p / 4) = t)).length = c.weight)

/-! ## Channels (chapter 7) -/

/-- A context write is refused with SETTING_REFUSED while a job is current, and for an undefined format
code in CTX_FMT; an accepted one replaces every field of its register, which a read then returns, and
leaves the other five registers and everything else (R111, R112). -/
def Obligations.ContextWriteIsJudged : Prop :=
  ∀ (c : Chan) (r : CtxReg) (v : Word) (s : State), s.port.stretched = false →
    (((s.chan c).state ≠ .idle ∧ (s.chan c).state ≠ .halted ∨
        r = .fmt ∧ (4 < v.toNat % 8 ∨ 4 < v.toNat / 16 % 8)) →
      exec (.ctxWrite c r v) s = .next { s with hostFaults := s.hostFaults ||| 2 }) ∧
    (((s.chan c).state = .idle ∨ (s.chan c).state = .halted) →
      ¬(r = .fmt ∧ (4 < v.toNat % 8 ∨ 4 < v.toNat / 16 % 8)) →
      ∃ x : Context, exec (.ctxWrite c r v) s = .next (s.setChan c { s.chan c with ctx := x }) ∧
        x.regWord r = v &&& (match r with
          | .fmt => 0x00031377 | .keyLo => 0xFFFFFFFF | .keyHi => 0xFFFFFFFF | .edge => 0x00FF010F
          | .lanes => 0x000000FF | .seg => 0x00FFFFFF) ∧
        ∀ q, q ≠ r → x.regWord q = (s.chan c).ctx.regWord q)

/-- JOB_PUSH is refused with JOB_REFUSED for a count of 0, a width of 0 or above 4096, or a full queue;
otherwise the descriptor joins the end of the queue, and on an IDLE channel becomes the current job in
the same event, with the path afresh (R114, R117). -/
def Obligations.JobPushIsJudged : Prop :=
  ∀ (c : Chan) (v : Word) (s : State) (x : Channel) (j : Job), s.port.stretched = false →
    x = s.chan c →
    j = { count := x.jobCount.toNat, width := x.jobWidth.toNat, tag := BitVec.ofNat 8 v.toNat,
          urgent := decide (v.toNat / 256 % 2 = 1), segNotify := decide (v.toNat / 512 % 2 = 1) } →
    ((j.count = 0 ∨ j.width = 0 ∨ 4096 < j.width ∨ 8 ≤ x.jobs.length) →
      exec (.jobPush c v) s = .next { s with hostFaults := s.hostFaults ||| 16 }) ∧
    (¬(j.count = 0 ∨ j.width = 0 ∨ 4096 < j.width ∨ 8 ≤ x.jobs.length) →
      (x.state ≠ .idle →
        exec (.jobPush c v) s = .next (s.setChan c { x with jobs := x.jobs ++ [j] })) ∧
      (x.state = .idle → x.jobs = [] →
        exec (.jobPush c v) s = .next (s.setChan c { x with
          jobs := [j], state := .wait .start, segment := 0, tag := j.tag, stall := 0
          path := { next := 0, inWord := none, held := none, outWord := none, done := 0 } })))

/-- A segment start attempt, row by row of Table 7-4: a sealed bank makes the channel wait, then a map
that is BUILDING or requested, then a map that cannot be used faults the job; otherwise the channel is
in RUN with its holds taken (R119). -/
def Obligations.SegmentStartFollowsTheTable : Prop :=
  (∀ (c : Chan) (s : State) (x : Channel), x = s.chan c → x.state = .wait .start →
    (x.ctx.src = .i8 → s.sealedPending x.ctx.bank = true →
      exec (.segmentStartAttempt c) s = .next (s.setChan c { x with state := .wait .bankCommit })) ∧
    (¬(x.ctx.src = .i8 ∧ s.sealedPending x.ctx.bank = true) →
      (x.ctx.dst = .i8 → (s.map x.ctx.map).state = .building ∨ s.buildPending x.ctx.map = true →
        exec (.segmentStartAttempt c) s = .next (s.setChan c { x with state := .wait .mapBusy })) ∧
      (¬(x.ctx.dst = .i8 ∧
          ((s.map x.ctx.map).state = .building ∨ s.buildPending x.ctx.map = true)) →
        (x.ctx.dst = .i8 → ((s.map x.ctx.map).state = .empty ∨
            (s.map x.ctx.map).state = .stale ∧ x.ctx.acceptStale = false) →
          exec (.segmentStartAttempt c) s = .next (s.faultJob c .mapUnusable)) ∧
        (¬(x.ctx.dst = .i8 ∧ ((s.map x.ctx.map).state = .empty ∨
            (s.map x.ctx.map).state = .stale ∧ x.ctx.acceptStale = false)) →
          ∃ t, exec (.segmentStartAttempt c) s = .next t ∧
            t = { s with banks := t.banks, maps := t.maps, channels := t.channels } ∧
            t.chan c = { x with state := .run, stall := 0 } ∧
            (∀ d, d ≠ c → t.chan d = s.chan d) ∧
            (∀ b, t.bank b = { s.bank b with
              holders := (s.bank b).holders + if x.ctx.src = .i8 ∧ b = x.ctx.bank then 1 else 0 }) ∧
            (∀ m, t.map m = { s.map m with
              holders := (s.map m).holders +
                if x.ctx.dst = .i8 ∧ m = x.ctx.map then 1 else 0 })))))

/-- The segments of a job of `n` pixels and segment length `l` number ceil(n / l), or 1; each pixel
belongs to exactly one, the one it is the last of or that runs past it; each but the last has `l` pixels
and the last ends at pixel n − 1 (R118). -/
def Obligations.SegmentsDivideTheJob : Prop :=
  ∀ l n : Nat, 1 ≤ n →
    ((l = 0 ∨ n ≤ l) → segmentCount l n = 1 ∧ segmentLast l n 0 = n - 1) ∧
    (1 ≤ l → l < n →
      segmentCount l n = n / l + (if n % l = 0 then 0 else 1) ∧
      (∀ g, g + 1 < segmentCount l n → segmentLast l n g = (g + 1) * l - 1) ∧
      segmentLast l n (segmentCount l n - 1) = n - 1 ∧
      ∀ k, k < n → ∃ g, g < segmentCount l n ∧ g * l ≤ k ∧ k ≤ segmentLast l n g ∧
        ∀ h, h < segmentCount l n → h * l ≤ k → k ≤ segmentLast l n h → h = g)

/-- A word written to CH_IN is accepted while the FIFO has room and a job is current or queued; on a full
FIFO it faults the job with OVERRUN in WAIT and RUN; otherwise it is dropped with INPUT_DROPPED (R127,
R131). A read of CH_OUT returns and removes the oldest word, clearing the stall timer in RUN, or returns
0 with OUTPUT_EMPTY (R133). -/
def Obligations.FifosTakeAndGiveWords : Prop :=
  (∀ (c : Chan) (v : Word) (s : State) (x : Channel), s.port.stretched = false → x = s.chan c →
    (x.inFifo.length < 16 → (x.state.hasJob = true ∨ x.jobs ≠ []) →
      exec (.chIn c v) s = .next (s.setChan c { x with inFifo := x.inFifo ++ [v] })) ∧
    (16 ≤ x.inFifo.length → ((∃ w, x.state = .wait w) ∨ x.state = .run) →
      exec (.chIn c v) s = .next ((s.faultJob c .overrun).lookForBuild)) ∧
    ((x.inFifo.length < 16 ∧ x.state.hasJob = false ∧ x.jobs = [] ∨
        16 ≤ x.inFifo.length ∧ (∀ w, x.state ≠ .wait w) ∧ x.state ≠ .run) →
      exec (.chIn c v) s = .next { s with hostFaults := s.hostFaults ||| 32 })) ∧
  (∀ (c : Chan) (s : State) (x : Channel), s.port.stretched = false → x = s.chan c →
    (∀ w rest, x.outFifo = w :: rest →
      exec (.chOut c) s = .next { s.setChan c { x with
        outFifo := rest, stall := if x.state = .run then 0 else x.stall } with
          bus := { s.bus with readData := w } }) ∧
    (x.outFifo = [] → exec (.chOut c) s = .next { s with
      hostFaults := s.hostFaults ||| 64, bus := { s.bus with readData := 0 } }))

/-- A fault ends the current job: the FIFOs and the path's words and held pixel are gone, the stall timer
is 0, the last fault code is the fault's, the channel is in POST with an URGENT JOB_FAULT of the code,
the tag and the pixels done, and in RUN the map hold and then the bank hold are released (R125, R154,
R124); the queued descriptors and the context stay. -/
def Obligations.FaultEndsTheJob : Prop :=
  ∀ (s u : State) (c : Chan) (f : FaultCode) (x : Channel), x = s.chan c →
    u = s.setChan c { x with
      state := .post { kind := .jobFault, cls := .urgent, source := c.code, tag := x.tag
                       detail1 := (match f with
                         | .stalled => 1 | .overrun => 2 | .aborted => 3 | .mapUnusable => 4
                         | .noCandidates => 5)
                       detail2 := x.path.done }
      lastFault := some f, inFifo := [], outFifo := [], stall := 0
      path := { x.path with inWord := none, held := none, outWord := none } } →
    (x.state ≠ .run → s.faultJob c f = u) ∧
    (x.state = .run → ∃ w : State,
      w = { u with maps := w.maps } ∧
      (∀ m, w.map m = { s.map m with
        holders := (s.map m).holders - if x.ctx.dst = .i8 ∧ m = x.ctx.map then 1 else 0 }) ∧
      s.faultJob c f = if x.ctx.src = .i8 then w.releaseBank x.ctx.bank else w)

/-- CH_CMD ABORT faults the job in WAIT and RUN and is otherwise ignored with CMD_IGNORED (R129). RESUME
takes HALTED to IDLE, where a queued descriptor becomes current, and is otherwise ignored (R130, R117).
RESET drops jobs, words, records and path, keeps context, JOB_COUNT and JOB_WIDTH, and in RUN releases
the map hold and then the bank hold (R134, R35, R92): with destination I8 the context map's holder count
falls by 1 (R84), then with source I8 the context bank is released (R17), as
LastReleaseReachesTheCommitPoint states. -/
def Obligations.ChannelCommandsByState : Prop :=
  (∀ (s : State) (x : Context), ∃ w : State, w = { s with maps := w.maps } ∧
    (∀ m, w.map m = { s.map m with
      holders := (s.map m).holders - if x.dst = .i8 ∧ m = x.map then 1 else 0 }) ∧
    s.releaseHolds x = if x.src = .i8 then w.releaseBank x.bank else w) ∧
  ∀ (c : Chan) (s : State) (x : Channel), s.port.stretched = false → x = s.chan c →
    (((∃ w, x.state = .wait w) ∨ x.state = .run) →
      exec (.chCmdAbort c) s = .next ((s.faultJob c .aborted).lookForBuild)) ∧
    ((∀ w, x.state ≠ .wait w) → x.state ≠ .run →
      exec (.chCmdAbort c) s = .next { s with hostFaults := s.hostFaults ||| 512 }) ∧
    (x.state = .halted → x.jobs = [] →
      exec (.chCmdResume c) s = .next (s.setChan c { x with state := .idle })) ∧
    (∀ j rest, x.state = .halted → x.jobs = j :: rest →
      exec (.chCmdResume c) s = .next (s.setChan c { x with
        state := .wait .start, segment := 0, tag := j.tag, stall := 0
        path := { next := 0, inWord := none, held := none, outWord := none, done := 0 } })) ∧
    (x.state ≠ .halted →
      exec (.chCmdResume c) s = .next { s with hostFaults := s.hostFaults ||| 512 }) ∧
    (∀ u : State, u = s.setChan c
        { ctx := x.ctx, jobCount := x.jobCount, jobWidth := x.jobWidth, jobs := [], state := .idle,
          segment := 0, tag := 0, lastFault := none, inFifo := [], outFifo := [], stall := 0
          path := { next := 0, inWord := none, held := none, outWord := none, done := 0 } } →
      (x.state ≠ .run → exec (.chCmdReset c) s = .next u) ∧
      (x.state = .run → exec (.chCmdReset c) s = .next ((u.releaseHolds x.ctx).lookForBuild)))

/-! ## The pixel path (chapters 1 and 8) -/

/-- A pixel of each format, given by its lane's contents, expands to the entry of its fields: those of
R565, A1555 and A4444 by Table 1-4 (R8), those of A8888 as they are, and an I8 pixel to the bank's entry
at its index (R9). Truncation keeps the top bits of a component as Table 1-5 says (R10), and the A8888
word has in each byte lane the component its selector names, for every setting of the four (R12).
Expansion then truncation carries each field to the value of Table 1-6, so that a conversion to the
same 16-bit format, and from A8888 to A8888 with the lanes as after reset, gives the same pixel (R11).
The key step makes an entry transparent, leaving its colour, when some enable is on and every enabled
component lies from its low to its high bound, and otherwise passes it unchanged (R142). -/
def Obligations.EntriesAreExpandedKeyedAndTruncated : Prop :=
  (∀ v : BitVec 5, (expand5 v).toNat = 8 * v.toNat + v.toNat / 4) ∧
  (∀ v : BitVec 6, (expand6 v).toNat = 4 * v.toNat + v.toNat / 16) ∧
  (∀ v : BitVec 4, (expand4 v).toNat = 17 * v.toNat) ∧
  (∀ v : Bool, (expand1 v).toNat = if v then 255 else 0) ∧
  (∀ (v : Word) (bank : List (Nat × Entry)),
    expandPixel .r565 bank v =
      { a := 255, r := expand5 (BitVec.ofNat 5 (v.toNat / 2 ^ 11)),
        g := expand6 (BitVec.ofNat 6 (v.toNat / 2 ^ 5)), b := expand5 (BitVec.ofNat 5 v.toNat) } ∧
    expandPixel .a1555 bank v =
      { a := expand1 (decide (v.toNat / 2 ^ 15 % 2 = 1)),
        r := expand5 (BitVec.ofNat 5 (v.toNat / 2 ^ 10)),
        g := expand5 (BitVec.ofNat 5 (v.toNat / 2 ^ 5)), b := expand5 (BitVec.ofNat 5 v.toNat) } ∧
    expandPixel .a4444 bank v =
      { a := expand4 (BitVec.ofNat 4 (v.toNat / 2 ^ 12)),
        r := expand4 (BitVec.ofNat 4 (v.toNat / 2 ^ 8)),
        g := expand4 (BitVec.ofNat 4 (v.toNat / 2 ^ 4)), b := expand4 (BitVec.ofNat 4 v.toNat) } ∧
    expandPixel .a8888 bank v =
      { a := BitVec.ofNat 8 (v.toNat / 2 ^ 24), r := BitVec.ofNat 8 (v.toNat / 2 ^ 16),
        g := BitVec.ofNat 8 (v.toNat / 2 ^ 8), b := BitVec.ofNat 8 v.toNat } ∧
    expandPixel .i8 bank v = Palette.read bank (v.toNat % 2 ^ 8)) ∧
  (∀ e : Byte, (trunc5 e).toNat = e.toNat / 8 ∧ (trunc6 e).toNat = e.toNat / 4 ∧
    (trunc4 e).toNat = e.toNat / 16 ∧ (trunc1 e = true ↔ 128 ≤ e.toNat)) ∧
  (∀ (l : LaneSelectors) (e : Entry) (f : Component → Nat),
    f = (fun
      | .b => e.b.toNat
      | .g => e.g.toNat
      | .r => e.r.toNat
      | .a => e.a.toNat) →
    (arrange l e).toNat =
      f l.lane0 + 2 ^ 8 * f l.lane1 + 2 ^ 16 * f l.lane2 + 2 ^ 24 * f l.lane3) ∧
  (∀ v : BitVec 4, trunc1 (expand4 v) = decide (8 ≤ v.toNat) ∧ (trunc4 (expand4 v)) = v ∧
    (trunc5 (expand4 v)).toNat = 2 * v.toNat + v.toNat / 8 ∧
    (trunc6 (expand4 v)).toNat = 4 * v.toNat + v.toNat / 4) ∧
  (∀ v : BitVec 5, (trunc4 (expand5 v)).toNat = v.toNat / 2 ∧ trunc5 (expand5 v) = v ∧
    (trunc6 (expand5 v)).toNat = 2 * v.toNat + v.toNat / 16) ∧
  (∀ v : BitVec 6, (trunc4 (expand6 v)).toNat = v.toNat / 4 ∧
    (trunc5 (expand6 v)).toNat = v.toNat / 2 ∧ trunc6 (expand6 v) = v) ∧
  (∀ v : Bool, trunc1 (expand1 v) = v ∧ (trunc4 (expand1 v)).toNat = if v then 15 else 0) ∧
  (∀ (v : Word) (bank : List (Nat × Entry)), v.toNat < 65536 →
    packR565 (expandPixel .r565 bank v) = v ∧ packA1555 (expandPixel .a1555 bank v) = v ∧
    packA4444 (expandPixel .a4444 bank v) = v) ∧
  (∀ (v : Word) (bank : List (Nat × Entry)),
    arrange Context.reset.lanes (expandPixel .a8888 bank v) = v) ∧
  (∀ (v : Word) (bank : List (Nat × Entry)), (expandPixel .r565 bank v).a = 255 ∧
    trunc1 (expandPixel .r565 bank v).a = true ∧ (trunc4 (expandPixel .r565 bank v).a).toNat = 15) ∧
  (∀ (x : Context) (e : Entry),
     (((x.keyEnA = true ∨ x.keyEnR = true ∨ x.keyEnG = true ∨ x.keyEnB = true) ∧
         (x.keyEnA = true → x.keyLo.a ≤ e.a ∧ e.a ≤ x.keyHi.a) ∧
         (x.keyEnR = true → x.keyLo.r ≤ e.r ∧ e.r ≤ x.keyHi.r) ∧
         (x.keyEnG = true → x.keyLo.g ≤ e.g ∧ e.g ≤ x.keyHi.g) ∧
         (x.keyEnB = true → x.keyLo.b ≤ e.b ∧ e.b ≤ x.keyHi.b)) →
       x.keyStep e = { e with a := 0 }) ∧
     (¬((x.keyEnA = true ∨ x.keyEnR = true ∨ x.keyEnG = true ∨ x.keyEnB = true) ∧
         (x.keyEnA = true → x.keyLo.a ≤ e.a ∧ e.a ≤ x.keyHi.a) ∧
         (x.keyEnR = true → x.keyLo.r ≤ e.r ∧ e.r ≤ x.keyHi.r) ∧
         (x.keyEnG = true → x.keyLo.g ≤ e.g ∧ e.g ≤ x.keyHi.g) ∧
         (x.keyEnB = true → x.keyLo.b ≤ e.b ∧ e.b ≤ x.keyHi.b)) →
       x.keyStep e = e))

/-- The edge step, run over all the pixels of a job one step at a time, releases every pixel once, in
order, with the alpha that R144 gives it from its neighbours in its row, and holds none at the end
(R144). -/
def Obligations.EdgeStreamMeetsTheEdgeRule : Prop :=
  ∀ (x : Context) (w n : Nat) (f : Nat → Entry), 1 ≤ w → 1 ≤ n →
    edgeRun x w n f n =
      ((List.range n).map fun k => { number := k, entry := edgeRule x w n f k }, none)

/-- The pixels of a word lie in its lanes by Table 1-2 (R5, Table 11-4), and the convert step gives a
pixel the fields of its format, the components the lane selectors name, or the index of its reduction at
column k mod w and row k / w, within its lane (R149, R150, R10, R12). A pixel step in the middle of a
segment, with edge off: the pixel's lane of the word in hand, or of the oldest input word, which is then
taken, is expanded, keyed, converted and put into its lane of the output word, which is handed over when
the lane is its last; pixels done rises by 1; the stall timer returns to 0 when a word is taken (R139,
R140, R151, R126). With edge on or off, in a segment's middle or at its end: the held pixel is released
with the alpha of R144, and so is the new pixel at the end of its row or of the job, or else it is held
(R145, R146); the pixels released are packed in order into at most two words, a word being handed over
when its last lane or the job's last pixel is filled; and the step can be taken when the output FIFO has
room for them (R151, R153). Inside a segment that is all it does. -/
def Obligations.PixelStepConvertsOnePixel : Prop :=
  (∀ f : Format, f.perWord * f.laneBits = 32 ∧ f.perWord = (match f with
      | .a8888 => 1
      | .r565 => 2
      | .a1555 => 2
      | .a4444 => 2
      | .i8 => 4)) ∧
  (∀ (f : Format) (w : Word) (n : Nat),
    (f.laneValue w n).toNat = w.toNat / 2 ^ (n * f.laneBits) % 2 ^ f.laneBits) ∧
  (∀ (x : Context) (m : ReductionMap) (w n v : Nat) (e : Entry),
    v = (x.convert m w { number := n, entry := e }).toNat →
    v < 2 ^ x.dst.laneBits ∧
    (x.dst = .a8888 → v = (arrange x.lanes e).toNat) ∧
    (x.dst = .r565 → v = 2 ^ 11 * (e.r.toNat / 8) + 2 ^ 5 * (e.g.toNat / 4) + e.b.toNat / 8) ∧
    (x.dst = .a1555 → v = 2 ^ 15 * (e.a.toNat / 128) + 2 ^ 10 * (e.r.toNat / 8) +
      2 ^ 5 * (e.g.toNat / 8) + e.b.toNat / 8) ∧
    (x.dst = .a4444 → v = 2 ^ 12 * (e.a.toNat / 16) + 2 ^ 8 * (e.r.toNat / 16) +
      2 ^ 4 * (e.g.toNat / 16) + e.b.toNat / 16) ∧
    (x.dst = .i8 → v = (m.reduce x.dither e (n % w) (n / w)).toNat)) ∧
  (∀ (c : Chan) (s : State) (x : Channel) (job : Job) (rest : List Job) (w : Word)
      (fifo : List Word) (out : Word), x = s.chan c → x.state = .run → x.jobs = job :: rest →
      x.ctx.edgeEn = false → x.path.held = none →
      (x.path.inWord = some w ∧ fifo = x.inFifo ∨ x.path.inWord = none ∧ x.inFifo = w :: fifo) →
      x.path.next + 1 < job.count →
      x.path.next ≠ segmentLast x.ctx.segLen.toNat job.count x.segment →
      out = x.path.outWord.getD 0 |||
        (x.ctx.convert (s.map x.ctx.map) job.width
          { number := x.path.next
            entry := x.ctx.keyStep (expandPixel x.ctx.src (s.bank x.ctx.bank).entries
              (x.ctx.src.laneValue w (x.path.next % x.ctx.src.perWord))) }) <<<
          (x.path.next % x.ctx.dst.perWord * x.ctx.dst.laneBits) →
      (x.path.next % x.ctx.dst.perWord + 1 = x.ctx.dst.perWord → x.outFifo.length < 16) →
      x.outFifo.length ≤ 16 →
      exec (.pixelStep c) s = .next (s.setChan c { x with
        path := { next := x.path.next + 1
                  inWord := if x.path.next % x.ctx.src.perWord + 1 = x.ctx.src.perWord then none
                    else some w
                  held := none
                  outWord := if x.path.next % x.ctx.dst.perWord + 1 = x.ctx.dst.perWord then none
                    else some out
                  done := x.path.done + 1 }
        inFifo := fifo
        outFifo := if x.path.next % x.ctx.dst.perWord + 1 = x.ctx.dst.perWord
          then x.outFifo ++ [out] else x.outFifo
        stall := if x.path.inWord = none then 0 else x.stall })) ∧
  (∀ (c : Chan) (s : State) (x : Channel) (job : Job) (rest : List Job) (w : Word)
    (fifo : List Word) (k : Nat) (e : Entry) (left : Bool) (before ps : List Released)
    (held : Option HeldPixel) (px : Released → Word) (full : Released → Bool) (out : List Word)
    (word : Option Word), x = s.chan c → x.state = .run → x.jobs = job :: rest →
    (x.path.inWord = some w ∧ fifo = x.inFifo ∨ x.path.inWord = none ∧ x.inFifo = w :: fifo) →
    k = x.path.next →
    e = x.ctx.keyStep (expandPixel x.ctx.src (s.bank x.ctx.bank).entries
      (x.ctx.src.laneValue w (k % x.ctx.src.perWord))) →
    left = (match x.path.held with
      | none => false
      | some h => decide (k % job.width ≠ 0 ∧ h.entry.a = 0)) →
    before = (match x.path.held with
      | none => []
      | some h => [{ number := h.number
                     entry := if h.entry.a ≠ 0 ∧ (h.leftTransparent = true ∨ e.a = 0)
                       then { h.entry with a := x.ctx.edgeAlpha } else h.entry }]) →
    (x.ctx.edgeEn = false ∧ ps = [{ number := k, entry := e }] ∧ held = none ∨
      x.ctx.edgeEn = true ∧ (k % job.width = job.width - 1 ∨ k + 1 = job.count) ∧
        ps = before ++ [{ number := k
                          entry := if e.a ≠ 0 ∧ left = true then { e with a := x.ctx.edgeAlpha }
                            else e }] ∧ held = none ∨
      x.ctx.edgeEn = true ∧ ¬(k % job.width = job.width - 1 ∨ k + 1 = job.count) ∧ ps = before ∧
        held = some { number := k, entry := e, leftTransparent := left }) →
    px = (fun p => x.ctx.convert (s.map x.ctx.map) job.width p <<<
      (p.number % x.ctx.dst.perWord * x.ctx.dst.laneBits)) →
    full = (fun p => decide (p.number % x.ctx.dst.perWord + 1 = x.ctx.dst.perWord ∨
      p.number + 1 = job.count)) →
    (ps = [] ∧ out = [] ∧ word = x.path.outWord ∨
      (∃ p v, ps = [p] ∧ v = x.path.outWord.getD 0 ||| px p ∧
        out = (if full p then [v] else []) ∧ word = if full p then none else some v) ∨
      ∃ p q u v, ps = [p, q] ∧ u = x.path.outWord.getD 0 ||| px p ∧
        v = (if full p then 0 else u) ||| px q ∧
        out = (if full p then [u] else []) ++ (if full q then [v] else []) ∧
        word = if full q then none else some v) →
    s.pixelReady c = if x.outFifo.length + out.length ≤ 16 then
        some (job,
          { path := { next := k + 1
                      inWord := if k % x.ctx.src.perWord + 1 = x.ctx.src.perWord ∨ k + 1 = job.count
                        then none else some w
                      held := held, outWord := word, done := x.path.done + ps.length }
            inFifo := fifo, out := out })
      else none) ∧
  (∀ (c : Chan) (s : State) (x : Channel) (job : Job) (r : PixelResult), x = s.chan c →
    s.pixelReady c = some (job, r) → x.path.next + 1 ≠ job.count →
    x.path.next ≠ segmentLast x.ctx.segLen.toNat job.count x.segment →
    exec (.pixelStep c) s = .next (s.setChan c { x with
      path := r.path, inFifo := r.inFifo, outFifo := x.outFifo ++ r.out
      stall := if x.path.inWord = none then 0 else x.stall }))

/-- A pixel step that can be taken and is the last of its segment or job: at the job's end the channel
is in POST with JOB_DONE, of the class the descriptor asks for, at another segment's end in POST with a
SEGMENT record or in WAIT for the next segment; either way with the stall timer 0 and the map hold and
then the bank hold released (R121, R122, R153, R124): with destination I8 the context map's holder count
falls by 1 (R84), then with source I8 the context bank is released (R17), as
LastReleaseReachesTheCommitPoint states. The step of the job's last pixel leaves no word in hand, no word
in progress, no held pixel and pixels done at the count; the last word it hands over has zero in every
lane beyond that pixel's (R7, R153); and it hands over two words exactly when the pixel held before it
fills the last lane of a word (R151). -/
def Obligations.PixelStepEndsSegmentsAndJobs : Prop :=
  (∀ (c : Chan) (s : State) (x y : Channel) (job : Job) (r : PixelResult), x = s.chan c →
    s.pixelReady c = some (job, r) →
    y = { x with path := r.path, inFifo := r.inFifo, outFifo := x.outFifo ++ r.out, stall := 0 } →
    (x.path.next + 1 = job.count →
      exec (.pixelStep c) s = .next (((s.setChan c { y with
        state := .post { kind := .jobDone, cls := if job.urgent then .urgent else .routine
                         source := c.code, tag := x.tag, detail1 := job.count
                         detail2 := segmentCount x.ctx.segLen.toNat job.count % 4096 } }).releaseHolds
        x.ctx).lookForBuild)) ∧
    (x.path.next + 1 ≠ job.count →
      x.path.next = segmentLast x.ctx.segLen.toNat job.count x.segment →
      (job.segNotify = true →
        exec (.pixelStep c) s = .next (((s.setChan c { y with
          state := .post { kind := .segment, cls := .routine, source := c.code, tag := x.tag
                           detail1 := x.segment % 4096
                           detail2 := if x.ctx.src = .i8
                             then (s.bank x.ctx.bank).generation.toNat else 0 } }).releaseHolds
          x.ctx).lookForBuild)) ∧
      (job.segNotify = false →
        exec (.pixelStep c) s = .next (((s.setChan c { y with
          state := .wait .start, segment := x.segment + 1 }).releaseHolds x.ctx).lookForBuild)))) ∧
  (∀ (s : State) (x : Context), ∃ w : State, w = { s with maps := w.maps } ∧
    (∀ m, w.map m = { s.map m with
      holders := (s.map m).holders - if x.dst = .i8 ∧ m = x.map then 1 else 0 }) ∧
    s.releaseHolds x = if x.src = .i8 then w.releaseBank x.bank else w) ∧
  (∀ (c : Chan) (s : State) (x : Channel) (job : Job) (r : PixelResult), x = s.chan c → PathOk x →
    s.pixelReady c = some (job, r) → x.path.next + 1 = job.count →
    r.path = { next := job.count, inWord := none, held := none, outWord := none, done := job.count } ∧
    (∃ (first : List Word) (v : Word), r.out = first ++ [v] ∧ first.length ≤ 1 ∧
      v.toNat < 2 ^ (((job.count - 1) % x.ctx.dst.perWord + 1) * x.ctx.dst.laneBits)) ∧
    (r.out.length = 2 ↔ ∃ h, x.path.held = some h ∧
      h.number % x.ctx.dst.perWord + 1 = x.ctx.dst.perWord))

/-! ## The event queue (chapter 10) -/

/-- The claim protocol. A read of EQ_HEAD0 or EQ_HEAD1 with no claim claims the oldest URGENT record, or
else the oldest ROUTINE one, and returns its word; with a claim it returns the claimed record's word and
changes nothing else; with an empty queue it returns 0 and claims nothing (R165, R166). -/
def Obligations.HeadReadsClaimThePresentedRecord : Prop :=
  ∀ (s : State), s.port.stretched = false →
    (∀ k, s.eq.claim = some k →
      exec .eqHead0 s = .next { s with
        bus := { s.bus with readData := recordWord0 (s.eq.ofClass k).head? } } ∧
      exec .eqHead1 s = .next { s with
        bus := { s.bus with readData := recordWord1 (s.eq.ofClass k).head? } }) ∧
    (∀ q rest, s.eq.claim = none → s.eq.urgent = q :: rest →
      exec .eqHead0 s = .next { s with
        eq := { s.eq with claim := some .urgent }
        bus := { s.bus with readData := recordWord0 (some q) } } ∧
      exec .eqHead1 s = .next { s with
        eq := { s.eq with claim := some .urgent }
        bus := { s.bus with readData := recordWord1 (some q) } }) ∧
    (∀ q rest, s.eq.claim = none → s.eq.urgent = [] → s.eq.routine = q :: rest →
      exec .eqHead0 s = .next { s with
        eq := { s.eq with claim := some .routine }
        bus := { s.bus with readData := recordWord0 (some q) } } ∧
      exec .eqHead1 s = .next { s with
        eq := { s.eq with claim := some .routine }
        bus := { s.bus with readData := recordWord1 (some q) } }) ∧
    (s.eq.claim = none → s.eq.urgent = [] → s.eq.routine = [] →
      exec .eqHead0 s = .next { s with bus := { s.bus with readData := 0 } } ∧
      exec .eqHead1 s = .next { s with bus := { s.bus with readData := 0 } })

/-- A write to EQ_POP removes the claimed record and ends the claim, whatever is written, clearing the
overdue flag and the coalescing timer when no ROUTINE record is left, and with no claim sets
POP_NO_CLAIM (R167, R173). A read of EQ_NEXT is a pop without that flag followed by a read of EQ_HEAD0
(R168). -/
def Obligations.PopsRemoveOnlyTheClaimedRecord : Prop :=
  ∀ (v : Word) (s : State), s.port.stretched = false →
    (s.eq.claim = none →
      exec (.eqPop v) s = .next { s with hostFaults := s.hostFaults ||| 128 } ∧
      ∃ t, exec .eqNext s = .next t ∧ exec .eqHead0 s = .next t) ∧
    (∀ q rest, s.eq.claim = some .urgent → s.eq.urgent = q :: rest →
      exec (.eqPop v) s = .next { s with eq := { s.eq with urgent := rest, claim := none } } ∧
      ∃ t, exec .eqNext s = .next t ∧
        exec .eqHead0 { s with eq := { s.eq with urgent := rest, claim := none } } = .next t) ∧
    (∀ q rest, s.eq.claim = some .routine → s.eq.routine = q :: rest → ∃ e : EventQueue,
      e = { s.eq with routine := rest, claim := none
                      timer := if rest = [] then 0 else s.eq.timer
                      overdue := if rest = [] then false else s.eq.overdue } ∧
      exec (.eqPop v) s = .next { s with eq := e } ∧
      ∃ t, exec .eqNext s = .next t ∧ exec .eqHead0 { s with eq := e } = .next t)

/-- EQ_CTRL: a threshold of 0 or above 24 is refused with SETTING_REFUSED and changes neither field; an
accepted write replaces both, and IRQ follows; a read returns both; a full reset sets 1 and 0, and
a soft reset and a channel reset leave both (R172). -/
def Obligations.ThresholdWriteIsJudged : Prop :=
  (∀ (v : Word) (s : State), s.port.stretched = false →
    ((v.toNat % 32 = 0 ∨ 24 < v.toNat % 32) →
      exec (.eqCtrl v) s = .next { s with hostFaults := s.hostFaults ||| 2 }) ∧
    (¬(v.toNat % 32 = 0 ∨ 24 < v.toNat % 32) → ∃ t, exec (.eqCtrl v) s = .next t ∧
      t = { s with eq := { s.eq with threshold := t.eq.threshold, timeout := t.eq.timeout } } ∧
      t.eq.threshold.toNat = v.toNat % 32 ∧ t.eq.timeout.toNat = v.toNat / 256 % 256 ∧
      t.registerWord .eqCtrl = some (v &&& 0x0000FF1F) ∧
      t.irq = (s.urgentCondition || decide (v.toNat % 32 ≤ s.eq.routine.length) && s.enables.rtn ||
        s.overdueCondition || s.faultCondition))) ∧
  (∀ s t : State, exec .fullReset s = .next t → t.eq.threshold = 1 ∧ t.eq.timeout = 0) ∧
  (∀ (e : Bool) (en : IrqEnables) (s t : State), exec (.softReset e en) s = .next t →
    t.eq.threshold = s.eq.threshold ∧ t.eq.timeout = s.eq.timeout) ∧
  (∀ (c : Chan) (s t : State), exec (.chCmdReset c) s = .next t →
    t.eq.threshold = s.eq.threshold ∧ t.eq.timeout = s.eq.timeout)

/-- A record enters the end of its class with the stamp counter's value, which advances by 1; a ROUTINE
count that rises from 0 sets the coalescing timer to 0 (R163, R173). The insertion event serves the
first fitting poster: the engine in POST, the abort slot, the channels in ascending order beginning after
the one last served and going round, the DEFERRED banks from the lowest; and that poster's own rule acts
(R169, R104, R106, R123, R56). -/
def Obligations.InsertionServesTheFirstFittingPoster : Prop :=
  (rotation .ch0 = [.ch1, .ch2, .ch0] ∧ rotation .ch1 = [.ch2, .ch0, .ch1] ∧
    rotation .ch2 = [.ch0, .ch1, .ch2]) ∧
  (∀ (q : EventQueue) (r : EventRecord),
    (r.cls = .urgent → q.insert r = { q with
      urgent := q.urgent ++ [{ record := r, stamp := q.stamp }], stamp := q.stamp + 1 }) ∧
    (r.cls = .routine → q.insert r = { q with
      routine := q.routine ++ [{ record := r, stamp := q.stamp }], stamp := q.stamp + 1
      timer := if q.routine = [] then 0 else q.timer }) ∧
    (q.hasRoom .urgent = true ↔ q.urgent.length + q.routine.length < 32) ∧
    (q.hasRoom .routine = true ↔
      q.urgent.length + q.routine.length < 32 ∧ q.routine.length < 24)) ∧
  ∀ s : State,
    (∀ r, s.engine.state = .post r → s.eq.hasRoom r.cls = true →
      exec .insertionEvent s = .next (State.lookForBuild { s with
        eq := s.eq.insert r
        engine := { s.engine with state := .idle, current := .m0, progress := 0 } })) ∧
    ((∀ r, s.engine.state = .post r → s.eq.hasRoom r.cls = false) →
      (∀ r, s.engine.abortSlot = some r → s.eq.hasRoom r.cls = true →
        exec .insertionEvent s = .next { s with
          eq := s.eq.insert r, engine := { s.engine with abortSlot := none } }) ∧
      ((∀ r, s.engine.abortSlot = some r → s.eq.hasRoom r.cls = false) →
        (∀ c r before after, rotation s.eq.lastServed = before ++ c :: after →
          (∀ d ∈ before, ∀ q, (s.chan d).state = .post q → s.eq.hasRoom q.cls = false) →
          (s.chan c).state = .post r → s.eq.hasRoom r.cls = true → ∃ y : Channel,
          exec .insertionEvent s = .next { s.setChan c y with
            eq := { s.eq.insert r with lastServed := c } } ∧
          (r.kind = .segment →
            y = { s.chan c with state := .wait .start, segment := (s.chan c).segment + 1 }) ∧
          (r.kind = .jobFault →
            y = { s.chan c with jobs := (s.chan c).jobs.drop 1, state := .halted }) ∧
          (r.kind = .jobDone →
            ((s.chan c).jobs.drop 1 = [] → y = { s.chan c with jobs := [], state := .idle }) ∧
            ∀ j rest, (s.chan c).jobs.drop 1 = j :: rest → y = { s.chan c with
              jobs := j :: rest, state := .wait .start, segment := 0, tag := j.tag, stall := 0
              path := { next := 0, inWord := none, held := none, outWord := none, done := 0 } })) ∧
        ((∀ c r, (s.chan c).state = .post r → s.eq.hasRoom r.cls = false) →
          ∀ b before after, [BankId.b0, .b1, .b2, .b3] = before ++ b :: after →
            (∀ d ∈ before, s.commitOf d ≠ .deferred) → s.commitOf b = .deferred →
            s.eq.hasRoom .routine = true →
            exec .insertionEvent s = .next (s.commit b).lookForBuild)))

/-- The presented record is pinned: while a record is claimed, no command but those that remove it
changes the claim or the claimed record (R165, R166). -/
def Obligations.ClaimLastsUntilItsRecordIsRemoved : Prop :=
  ∀ (i : Instr) (s t : State) (q : StampedRecord), endsClaim i = false → exec i s = .next t →
    s.eq.claimed = some q → t.eq.claim = s.eq.claim ∧ t.eq.claimed = some q

/-! ## Status words -/

/-- The shape code of MAP_STATUS lies from 0 to 3429 and is decoded as R183 says; after a full reset each
MAP_STATUS reads 0 (R183). -/
def Obligations.ShapeCodeDecodes : Prop :=
  (∀ x : ReductionMap, x.params.valid = true → x.holders ≤ 3 → ∃ q : Nat,
    x.shapeCode = q + 10 * (x.params.nr - 2) + 70 * (x.params.ng - 2) + 490 * (x.params.nb - 2) ∧
    x.shapeCode ≤ 3429 ∧
    (x.state = .empty → q = 0) ∧ (x.state = .building → q = 1) ∧
    (x.state = .ready → q = 2 + x.holders) ∧ (x.state = .stale → q = 6 + x.holders) ∧
    x.shapeCode % 10 = q ∧ 2 + x.shapeCode / 10 % 7 = x.params.nr ∧
    2 + x.shapeCode / 70 % 7 = x.params.ng ∧ 2 + x.shapeCode / 490 = x.params.nb) ∧
  (∀ (s : State) (m : MapId), (s.map m).params.valid = true → (s.map m).holders ≤ 3 →
    ∃ w : Word, s.registerWord (.mapStatus m) = some w ∧
      w.toNat / 16 % 4096 = (s.map m).shapeCode) ∧
  (∀ (s t : State) (m : MapId), exec .fullReset s = .next t →
    t.registerWord (.mapStatus m) = some 0)

/-- The words the status registers return, field by field (R33, R58, R71, R91, R109, R136, R161, R174,
R179), and the two words of an event record (Tables 11-7 and 11-8). The bank field of STG_STATUS with no record
OPEN is any bank: it is free (log 5). -/
def Obligations.StatusWordsShowTheState : Prop :=
  (∀ s : State, CollectionsOk s →
    (∀ b, (s.bank b).holders ≤ 4 → ∃ w : Word, s.registerWord (.bankStatus b) = some w ∧
      w.toNat = (s.bank b).generation.toNat + 2 ^ 16 * (s.bank b).holders +
        2 ^ 20 * (s.sealedPending b).toNat + 2 ^ 21 * (s.hasRole b).toNat) ∧
    (∀ m, (s.map m).params.valid = true → (s.map m).holders ≤ 3 →
      ∃ w : Word, s.registerWord (.mapStatus m) = some w ∧
      w.toNat = (decide (∃ q ∈ s.engine.requests, q.map = m)).toNat +
        2 * (s.map m).params.autoRebuild.toNat + 2 ^ 2 * (s.map m).params.source.code.toNat +
        2 ^ 4 * ((match (s.map m).state with
            | .empty => 0
            | .building => 1
            | .ready => 2 + (s.map m).holders
            | .stale => 6 + (s.map m).holders) +
          10 * ((s.map m).params.nr - 2) + 70 * ((s.map m).params.ng - 2) +
          490 * ((s.map m).params.nb - 2)) + 2 ^ 16 * (s.map m).generation.toNat) ∧
    (∃ w : Word, s.registerWord .eqStatus = some w ∧
      w.toNat = s.eq.urgent.length + 2 ^ 8 * s.eq.routine.length +
        2 ^ 16 * (s.eq.claim.isSome).toNat + 2 ^ 17 * (decide (s.eq.claim = some .urgent)).toNat +
        2 ^ 18 * s.eq.overdue.toNat) ∧
    (∃ (w : Word) (x : BankId), s.registerWord .stgStatus = some w ∧
      (∀ r ∈ s.uq.records, r.state = .opened → x = r.bank) ∧
      w.toNat = s.uq.records.length + 2 ^ 8 * (s.uq.records.map fun r => r.count).sum +
        2 ^ 16 * (s.uq.records.any fun r => decide (r.state = .opened)).toNat +
        2 ^ 17 * x.code.toNat + 2 ^ 20 * (s.sealedPending .b0).toNat +
        2 ^ 21 * (s.sealedPending .b1).toNat + 2 ^ 22 * (s.sealedPending .b2).toNat +
        2 ^ 23 * (s.sealedPending .b3).toNat) ∧
    (s.port.items.length ≤ 3 → ∃ w : Word, s.registerWord .apStatus = some w ∧
      w.toNat = s.port.index + 2 ^ 16 * s.port.target.code.toNat +
        2 ^ 20 * (if s.port.filling = true then 1 else if s.port.items = [] then 0 else 2) +
        2 ^ 24 * s.port.items.length) ∧
    (s.engine.requests.length ≤ 3 → s.engine.progress < 1024 →
      ∃ w : Word, s.registerWord .bldStatus = some w ∧
      w.toNat = (match s.engine.state with
          | .idle => 0
          | .building => 1
          | .post _ => 2) +
        2 ^ 2 * s.engine.current.code.toNat + 2 ^ 4 * s.engine.requests.length +
        2 ^ 6 * (s.engine.abortSlot.isSome).toNat + 2 ^ 16 * s.engine.progress) ∧
    (∃ w : Word, s.registerWord .scnStatus = some w ∧
      w.toNat = (match s.scanout.state with
          | .off => 0
          | .armed => 1
          | .on => 2) +
        2 ^ 4 * s.scanout.current.code.toNat + 2 ^ 16 * s.scanout.frame.toNat) ∧
    (∃ w : Word, s.registerWord .engCtrl = some w ∧
      w.toNat = 2 * (decide (s.scanout.state ≠ .off)).toNat + 2 ^ 4 * s.enables.urg.toNat +
        2 ^ 5 * s.enables.rtn.toNat + 2 ^ 6 * s.enables.flt.toNat) ∧
    (∃ w : Word, s.registerWord .engStatus = some w ∧
      w.toNat = s.irq.toNat + 2 * s.urgentCondition.toNat + 2 ^ 2 * s.routineCondition.toNat +
        2 ^ 3 * s.overdueCondition.toNat + 2 ^ 4 * s.faultCondition.toNat +
        2 ^ 8 * (decide ((s.chan .ch0).state = .halted)).toNat +
        2 ^ 9 * (decide ((s.chan .ch1).state = .halted)).toNat +
        2 ^ 10 * (decide ((s.chan .ch2).state = .halted)).toNat) ∧
    (∀ (c : Chan) (x : Channel), x = s.chan c →
      (∃ w : Word, s.registerWord (.chStatus c) = some w ∧
        w.toNat = x.tag.toNat +
          2 ^ 8 * (match x.state with
            | .idle => 0
            | .wait _ => 1
            | .run => 2
            | .post _ => 3
            | .halted => 4) +
          2 ^ 11 * (if x.state = .wait .start then 1 else if x.state = .wait .bankCommit then 2
            else if x.state = .wait .mapBusy then 3 else 0) +
          2 ^ 13 * (match x.lastFault with
            | none => 0
            | some f => f.code) +
          2 ^ 16 * x.jobs.length + 2 ^ 20 * x.inFifo.length + 2 ^ 25 * x.outFifo.length) ∧
      (∃ w : Word, s.registerWord (.chProgress c) = some w ∧
        w.toNat = x.path.done % 2 ^ 20 + 2 ^ 20 * (x.segment % 4096)))) ∧
  (∀ q : StampedRecord,
    (recordWord0 (some q)).toNat = (match q.record.kind with
        | .jobDone => 1
        | .jobFault => 2
        | .segment => 3
        | .buildDone => 4
        | .buildFault => 5
        | .commit => 6) +
      2 ^ 3 * (decide (q.record.cls = .urgent)).toNat + 2 ^ 4 * q.record.source.toNat +
      2 ^ 8 * q.record.tag.toNat + 2 ^ 16 * q.stamp.toNat ∧
    (recordWord1 (some q)).toNat =
      match q.record.kind with
      | .jobDone => q.record.detail1 % 2 ^ 20 + 2 ^ 20 * (q.record.detail2 % 2 ^ 12)
      | .jobFault => q.record.detail2 % 2 ^ 20 + 2 ^ 20 * (q.record.detail1 % 2 ^ 3)
      | .segment => q.record.detail2 % 2 ^ 16 + 2 ^ 16 * (q.record.detail1 % 2 ^ 12)
      | .buildDone => q.record.detail1 % 2 ^ 16 + 2 ^ 16 * (q.record.detail2 % 2 ^ 16)
      | .buildFault => q.record.detail1 % 2 ^ 3
      | .commit => q.record.detail1 % 2 ^ 16 + 2 ^ 16 * (q.record.detail2 % 2 ^ 16)) ∧
  recordWord0 none = 0 ∧ recordWord1 none = 0

/-! ## Invariants (the laws the part keeps at every event) -/

/-- The state after a full reset meets every invariant. -/
def Obligations.ResetMeetsEveryInvariant : Prop :=
  CollectionsOk State.reset ∧ HoldsAgree State.reset ∧ CommitsAgree State.reset ∧
    PrefetchOk State.reset ∧ MapsOk State.reset ∧ PathsOk State.reset ∧ WaitsOk State.reset ∧
    NoBuildMissed State.reset

/-- Every step keeps every collection within its capacity and its shape (R13, R37, R38, R60, R114 to
R116, R131, R133, R164, R172, R182). -/
def Obligations.EveryStepKeepsTheCapacities : Prop :=
  ∀ s t : State, CollectionsOk s → step s = .next t → CollectionsOk t

/-- Every step keeps the holder counts equal to the holds: of a bank, the channels in RUN with source I8
on it and a build from it; of a map, the channels in RUN with destination I8 on it; and a BUILDING map,
which is the engine's, is held by none (R15, R84, R87, R95). -/
def Obligations.EveryStepKeepsTheHolderCounts : Prop :=
  ∀ s t : State, HoldsAgree s → step s = .next t → HoldsAgree t

/-- Every step keeps each bank's sealed-pending flag with its SEALED records, and a DEFERRED bank free of
holds and of the display role (R20, R48). -/
def Obligations.EveryStepKeepsTheCommitStates : Prop :=
  ∀ s t : State, CommitsAgree s → step s = .next t → CommitsAgree t

/-- Every step keeps the prefetch current: its items are what the target holds now at the current index
and the next (R63, R65, R67). -/
def Obligations.EveryStepKeepsThePrefetchCurrent : Prop :=
  ∀ s t : State, PrefetchOk s → step s = .next t → PrefetchOk t

/-- Every step keeps a READY or STALE map complete, with every cell within the eligible range, a BUILDING
map valid below its progress, an EMPTY map without valid cells, and at most one request a map, none for
a BUILDING one (R78 to R81, R94, R95). -/
def Obligations.EveryStepKeepsTheMapsComplete : Prop :=
  ∀ s t : State, MapsOk s → step s = .next t → MapsOk t

/-- Every step keeps the pixel path of every channel in agreement with its job: pixels done, the words in
hand and in progress, the unfilled lanes of the latter 0, the held pixel and the segment number (R118,
R138, R140, R146, R151). -/
def Obligations.EveryStepKeepsThePixelPathInStep : Prop :=
  ∀ s t : State, CollectionsOk s → PathsOk s → step s = .next t → PathsOk t

/-- Every step leaves no channel waiting for a commit or a build that has already come (R120), and no
startable request before an IDLE engine: that a build starts within the event that makes it startable,
although BUILD_START is a command of its own, is the model's reading of R97 (log 10). -/
def Obligations.NothingWaitsForWhatHasHappened : Prop :=
  (∀ s t : State, WaitsOk s → step s = .next t → WaitsOk t) ∧
  (∀ s t : State, NoBuildMissed s → step s = .next t → NoBuildMissed t)

/-- A channel that is in RUN before and after an event reads one version of its tables: with source I8
its bank keeps entries and generation, with destination I8 its map keeps cells, parameters and
generation, and its context stays (R24, R32, R90, R111). -/
def Obligations.SegmentReadsOneVersionOfItsTables : Prop :=
  ∀ (i : Instr) (s t : State) (c : Chan), HoldsAgree s → CommitsAgree s → exec i s = .next t →
    (s.chan c).state = .run → (t.chan c).state = .run →
    (t.chan c).ctx = (s.chan c).ctx ∧
    ((s.chan c).ctx.src = .i8 →
      (t.bank (s.chan c).ctx.bank).entries = (s.bank (s.chan c).ctx.bank).entries ∧
      (t.bank (s.chan c).ctx.bank).generation = (s.bank (s.chan c).ctx.bank).generation) ∧
    ((s.chan c).ctx.dst = .i8 →
      (t.map (s.chan c).ctx.map).cells = (s.map (s.chan c).ctx.map).cells ∧
      (t.map (s.chan c).ctx.map).params = (s.map (s.chan c).ctx.map).params ∧
      (t.map (s.chan c).ctx.map).generation = (s.map (s.chan c).ctx.map).generation)

end
end

