-- ==== Sys2Proof/Laws/Fields.lean ====
section
/-! SUPPORT. The bit fields of a word as numbers: what a field read is, and what a word put together
from fields that do not overlap is. -/

namespace Sys2Proof

/-- A field read from a word is the quotient by its place, cut to its width. -/
theorem fieldAt_eq_ofNat (v : Word) (lo w : Nat) :
    fieldAt v lo w = BitVec.ofNat w (v.toNat / 2 ^ lo) := by
  apply BitVec.eq_of_toNat_eq
  simp [fieldAt, BitVec.extractLsb'_toNat, Nat.shiftRight_eq_div_pow]

/-- A bit of a word is the parity of the quotient by its place. -/
theorem bitAt_eq_decide (v : Word) (i : Nat) : bitAt v i = decide (v.toNat / 2 ^ i % 2 = 1) := by
  simp [bitAt, BitVec.getLsbD, Nat.testBit_eq_decide_div_mod_eq]

/-- A field that fits its place has the value of its contents times the place. -/
theorem putAt_toNat {n : Nat} (x : BitVec n) (k : Nat) (h : n + k ≤ 32) :
    (putAt x k).toNat = 2 ^ k * x.toNat := by
  have hx : x.toNat * 2 ^ k < 2 ^ 32 :=
    calc x.toNat * 2 ^ k < 2 ^ n * 2 ^ k := Nat.mul_lt_mul_of_pos_right x.isLt (by positivity)
      _ = 2 ^ (n + k) := by rw [Nat.pow_add]
      _ ≤ 2 ^ 32 := Nat.pow_le_pow_right (by norm_num) h
  have hs : x.toNat < 2 ^ 32 :=
    lt_of_lt_of_le x.isLt (Nat.pow_le_pow_right (by norm_num) (by omega))
  rw [putAt, BitVec.toNat_shiftLeft, BitVec.toNat_setWidth, Nat.mod_eq_of_lt hs, Nat.shiftLeft_eq,
    Nat.mod_eq_of_lt hx, Nat.mul_comm]

/-- A field put above a word that lies below its place adds to it: a status word is the sum of its
fields, taken from the lowest up. -/
theorem putAt_or_toNat {n : Nat} (x : BitVec n) (k : Nat) (y : Word) (hy : y.toNat < 2 ^ k)
    (h : n + k ≤ 32) : (putAt x k ||| y).toNat = 2 ^ k * x.toNat + y.toNat := by
  rw [BitVec.toNat_or, putAt_toNat x k h, Nat.mul_comm, ← Nat.shiftLeft_eq,
    ← Nat.shiftLeft_add_eq_or_of_lt hy]

/-- The value of a flag's one-bit field. -/
theorem ofBool_toNat (b : Bool) : (BitVec.ofBool b).toNat = b.toNat := by cases b <;> rfl

end Sys2Proof
end

