-- ==== Sys2Proof/Laws/Memory.lean ====
section
/-! SUPPORT. The entries of a bank as memory: reading after writing, and that every operation keeps the
canonical form, in which equal banks are equal lists (R13, R30). -/

namespace Sys2Proof.Machine

theorem Palette.wfFrom_mono {lo lo' : Nat} {p : List (Nat × Entry)} (h : lo' ≤ lo)
    (hp : Palette.wfFrom lo p = true) : Palette.wfFrom lo' p = true := by
  cases p with
  | nil => rfl
  | cons a rest =>
    simp only [Palette.wfFrom, Bool.and_eq_true, decide_eq_true_eq] at hp ⊢
    exact ⟨⟨⟨by omega, hp.1.1.2⟩, hp.1.2⟩, hp.2⟩

/-- Below its first index a well-formed list reads (0, 0, 0, 0). -/
theorem Palette.read_of_wfFrom_lt {lo i : Nat} {p : List (Nat × Entry)}
    (hp : Palette.wfFrom lo p = true) (h : i < lo) : Palette.read p i = Entry.zero := by
  induction p generalizing lo with
  | nil => rfl
  | cons a rest ih =>
    simp only [Palette.wfFrom, Bool.and_eq_true, decide_eq_true_eq] at hp
    have hne : a.1 ≠ i := by omega
    simp only [Palette.read, hne, if_false]
    exact ih hp.2 (by omega)

/-- Outside the bank a well-formed list reads (0, 0, 0, 0). -/
theorem Palette.read_of_wfFrom_ge {lo i : Nat} {p : List (Nat × Entry)}
    (hp : Palette.wfFrom lo p = true) (h : Palette.size ≤ i) : Palette.read p i = Entry.zero := by
  induction p generalizing lo with
  | nil => rfl
  | cons a rest ih =>
    simp only [Palette.wfFrom, Bool.and_eq_true, decide_eq_true_eq] at hp
    have hne : a.1 ≠ i := by omega
    simp only [Palette.read, hne, if_false]
    exact ih hp.2

theorem Palette.read_drop_other {p : List (Nat × Entry)} {i j : Nat} (h : j ≠ i) :
    Palette.read (Palette.drop p i) j = Palette.read p j := by
  induction p with
  | nil => rfl
  | cons a rest ih =>
    by_cases hi : a.1 = i
    · have hj : a.1 ≠ j := by omega
      simp only [Palette.drop, hi, if_true, Palette.read]
      rw [if_neg (by omega)]
    · simp only [Palette.drop, hi, if_false, Palette.read, ih]

theorem Palette.read_drop_same {lo i : Nat} {p : List (Nat × Entry)}
    (hp : Palette.wfFrom lo p = true) : Palette.read (Palette.drop p i) i = Entry.zero := by
  induction p generalizing lo with
  | nil => rfl
  | cons a rest ih =>
    simp only [Palette.wfFrom, Bool.and_eq_true, decide_eq_true_eq] at hp
    by_cases hi : a.1 = i
    · simp only [Palette.drop, hi, if_true]
      exact Palette.read_of_wfFrom_lt hp.2 (by omega)
    · simp only [Palette.drop, hi, if_false, Palette.read]
      exact ih hp.2

theorem Palette.read_insert {p : List (Nat × Entry)} {i j : Nat} {x : Entry} :
    Palette.read (Palette.insert p i x) j = if j = i then x else Palette.read p j := by
  induction p with
  | nil =>
    by_cases h : j = i
    · simp [Palette.insert, Palette.read, h]
    · simp [Palette.insert, Palette.read, h, Ne.symm h]
  | cons a rest ih =>
    by_cases h : j = i
    · subst h
      simp only [Palette.insert, if_true]
      split
      · simp [Palette.read]
      · split
        · simp [Palette.read]
        · simp [Palette.read, *]
    · simp only [Palette.insert, h, if_false]
      split
      · simp [Palette.read, Ne.symm h]
      · split
        · have : a.1 ≠ j := by omega
          simp [Palette.read, Ne.symm h, this]
        · simp [Palette.read, ih, h]

/-- A write is read back, and leaves every other entry. -/
theorem Palette.read_write {lo i j : Nat} {p : List (Nat × Entry)} {x : Entry}
    (hp : Palette.wfFrom lo p = true) :
    Palette.read (Palette.write p i x) j = if j = i then x else Palette.read p j := by
  unfold Palette.write
  by_cases hx : x = Entry.zero
  · rw [if_pos hx]
    by_cases h : j = i
    · subst h; rw [if_pos rfl, Palette.read_drop_same hp, hx]
    · rw [if_neg h, Palette.read_drop_other h]
  · rw [if_neg hx, Palette.read_insert]

theorem Palette.drop_wfFrom {lo i : Nat} {p : List (Nat × Entry)}
    (hp : Palette.wfFrom lo p = true) : Palette.wfFrom lo (Palette.drop p i) = true := by
  induction p generalizing lo with
  | nil => rfl
  | cons a rest ih =>
    simp only [Palette.wfFrom, Bool.and_eq_true, decide_eq_true_eq] at hp
    by_cases hi : a.1 = i
    · simp only [Palette.drop, hi, if_true]
      exact Palette.wfFrom_mono (by omega) hp.2
    · simp only [Palette.drop, hi, if_false, Palette.wfFrom, Bool.and_eq_true, decide_eq_true_eq]
      exact ⟨hp.1, ih hp.2⟩

theorem Palette.insert_wfFrom {lo i : Nat} {p : List (Nat × Entry)} {x : Entry}
    (hp : Palette.wfFrom lo p = true) (hlo : lo ≤ i) (hi : i < Palette.size) (hx : x ≠ Entry.zero) :
    Palette.wfFrom lo (Palette.insert p i x) = true := by
  induction p generalizing lo with
  | nil => simp [Palette.insert, Palette.wfFrom, hlo, hi, hx]
  | cons a rest ih =>
    simp only [Palette.wfFrom, Bool.and_eq_true, decide_eq_true_eq] at hp
    simp only [Palette.insert]
    split
    · simp only [Palette.wfFrom, Bool.and_eq_true, decide_eq_true_eq]
      exact ⟨⟨⟨hlo, hi⟩, hx⟩, ⟨⟨⟨by omega, hp.1.1.2⟩, hp.1.2⟩, hp.2⟩⟩
    · split
      · simp only [Palette.wfFrom, Bool.and_eq_true, decide_eq_true_eq]
        exact ⟨⟨⟨hlo, hi⟩, hx⟩, Palette.wfFrom_mono (by omega) hp.2⟩
      · simp only [Palette.wfFrom, Bool.and_eq_true, decide_eq_true_eq]
        exact ⟨hp.1, ih hp.2 (by omega)⟩

/-- A write within the bank keeps the canonical form. -/
theorem Palette.write_wf {i : Nat} {p : List (Nat × Entry)} {x : Entry}
    (hp : Palette.wf p = true) (hi : i < Palette.size) : Palette.wf (Palette.write p i x) = true := by
  unfold Palette.write Palette.wf at *
  split
  · exact Palette.drop_wfFrom hp
  · rename_i hx
    exact Palette.insert_wfFrom hp (Nat.zero_le _) hi hx

/-- A run within the bank keeps the canonical form. -/
theorem Palette.writeRun_wf {i : Nat} {p : List (Nat × Entry)} {xs : List Entry}
    (hp : Palette.wf p = true) (hi : i + xs.length ≤ Palette.size) :
    Palette.wf (Palette.writeRun p i xs) = true := by
  induction xs generalizing p i with
  | nil => exact hp
  | cons x rest ih =>
    simp only [List.length_cons] at hi
    exact ih (Palette.write_wf hp (by omega)) (by omega)

/-- A run gives each entry it covers its colour, and leaves every other entry. -/
theorem Palette.read_writeRun {i j : Nat} {p : List (Nat × Entry)} {xs : List Entry}
    (hp : Palette.wf p = true) (hi : i + xs.length ≤ Palette.size) :
    Palette.read (Palette.writeRun p i xs) j =
      if i ≤ j ∧ j < i + xs.length then xs.getD (j - i) Entry.zero else Palette.read p j := by
  induction xs generalizing p i with
  | nil => rw [if_neg (by simp only [List.length_nil]; omega)]; rfl
  | cons x rest ih =>
    simp only [List.length_cons] at hi
    have hw := Palette.write_wf (x := x) hp (i := i) (by omega)
    have hr := Palette.read_write (i := i) (j := j) (x := x) hp
    simp only [Palette.writeRun]
    rw [ih hw (by omega), hr]
    by_cases h1 : j = i
    · subst h1
      rw [if_neg (by omega), if_pos rfl, if_pos (by simp)]
      simp
    · by_cases h2 : i + 1 ≤ j ∧ j < i + 1 + rest.length
      · rw [if_pos h2, if_pos (by simp only [List.length_cons]; omega)]
        obtain ⟨k, hk⟩ : ∃ k, j - i = k + 1 := ⟨j - i - 1, by omega⟩
        rw [hk, show j - (i + 1) = k by omega]
        simp
      · rw [if_neg h2, if_neg h1, if_neg (by simp only [List.length_cons]; omega)]

/-- Equal memories are equal data: two well-formed lists that read alike are the same list. -/
theorem Palette.ext_of_wfFrom {lo : Nat} {p q : List (Nat × Entry)}
    (hp : Palette.wfFrom lo p = true) (hq : Palette.wfFrom lo q = true)
    (h : ∀ i, Palette.read p i = Palette.read q i) : p = q := by
  induction p generalizing lo q with
  | nil =>
    cases q with
    | nil => rfl
    | cons b rest =>
      simp only [Palette.wfFrom, Bool.and_eq_true, decide_eq_true_eq] at hq
      have hb := h b.1
      simp only [Palette.read, if_true] at hb
      exact absurd hb.symm hq.1.2
  | cons a rest ih =>
    simp only [Palette.wfFrom, Bool.and_eq_true, decide_eq_true_eq] at hp
    cases q with
    | nil =>
      have ha := h a.1
      simp only [Palette.read, if_true] at ha
      exact absurd ha hp.1.2
    | cons b rest' =>
      simp only [Palette.wfFrom, Bool.and_eq_true, decide_eq_true_eq] at hq
      obtain ⟨i, e⟩ := a
      obtain ⟨j, f⟩ := b
      simp only at hp hq
      have hij : i = j := by
        rcases Nat.lt_trichotomy i j with hlt | heq | hgt
        · have ha := h i
          simp only [Palette.read, if_true, if_neg (show ¬ j = i by omega)] at ha
          rw [Palette.read_of_wfFrom_lt hq.2 (by omega)] at ha
          exact absurd ha hp.1.2
        · exact heq
        · have hb := h j
          simp only [Palette.read, if_true, if_neg (show ¬ i = j by omega)] at hb
          rw [Palette.read_of_wfFrom_lt hp.2 (by omega)] at hb
          exact absurd hb.symm hq.1.2
      subst hij
      have he := h i
      simp only [Palette.read, if_true] at he
      subst he
      have hrest : rest = rest' := by
        refine ih hp.2 hq.2 fun k => ?_
        rcases Nat.lt_or_ge i k with hlt | hge
        · have hk := h k
          simpa only [Palette.read, if_neg (show ¬ i = k by omega)] using hk
        · rw [Palette.read_of_wfFrom_lt hp.2 (by omega), Palette.read_of_wfFrom_lt hq.2 (by omega)]
      rw [hrest]

/-- Every bank is well formed after a full reset. -/
theorem State.reset_banks_wf (b : BankId) : Palette.wf (State.reset.bank b).entries = true := by
  cases b <;> rfl

/-- The application of records whose runs lie in the bank keeps the canonical form (R30). -/
theorem applyRecords_wf {p : List (Nat × Entry)} {l : List UpdateRecord} (hp : Palette.wf p = true)
    (hl : ∀ r ∈ l, r.start.toNat + r.colours.length ≤ Palette.size) :
    Palette.wf (applyRecords p l) = true := by
  induction l generalizing p with
  | nil => exact hp
  | cons r rest ih =>
    exact ih (Palette.writeRun_wf hp (hl r (by simp))) fun q hq => hl q (by simp [hq])

end Sys2Proof.Machine
end

