-- ==== Sys2Proof/Laws/State.lean ====
section
/-! SUPPORT. The small lemmas of the state's updates: what each leaves in each field and in each view,
and reading a member of a collection after setting one. -/

namespace Sys2Proof.Machine

/-! ## Collections with one member for each bank, map or channel -/

@[simp] theorem PerBank.get_set_same {α : Type} (p : PerBank α) (b : BankId) (x : α) :
    (p.set b x).get b = x := by cases b <;> rfl
theorem PerBank.get_set_other {α : Type} (p : PerBank α) (b b' : BankId) (x : α) (h : b' ≠ b) :
    (p.set b x).get b' = p.get b' := by
  cases b <;> cases b' <;> first | rfl | exact absurd rfl h
theorem PerBank.get_set {α : Type} (p : PerBank α) (b b' : BankId) (x : α) :
    (p.set b x).get b' = if b' = b then x else p.get b' := by
  cases b <;> cases b' <;> rfl
@[simp] theorem PerBank.set_set {α : Type} (p : PerBank α) (b : BankId) (x y : α) :
    (p.set b x).set b y = p.set b y := by cases b <;> rfl
@[simp] theorem PerBank.set_get {α : Type} (p : PerBank α) (b : BankId) :
    p.set b (p.get b) = p := by cases b <;> rfl
theorem PerBank.ext_get {α : Type} (p q : PerBank α) (h : ∀ b, p.get b = q.get b) : p = q := by
  cases p; cases q
  have h0 := h .b0; have h1 := h .b1; have h2 := h .b2; have h3 := h .b3
  simp only [PerBank.get] at h0 h1 h2 h3; subst h0; subst h1; subst h2; subst h3; rfl

@[simp] theorem PerMap.get_set_same {α : Type} (p : PerMap α) (m : MapId) (x : α) :
    (p.set m x).get m = x := by cases m <;> rfl
theorem PerMap.get_set_other {α : Type} (p : PerMap α) (m m' : MapId) (x : α) (h : m' ≠ m) :
    (p.set m x).get m' = p.get m' := by
  cases m <;> cases m' <;> first | rfl | exact absurd rfl h
theorem PerMap.get_set {α : Type} (p : PerMap α) (m m' : MapId) (x : α) :
    (p.set m x).get m' = if m' = m then x else p.get m' := by
  cases m <;> cases m' <;> rfl
@[simp] theorem PerMap.set_set {α : Type} (p : PerMap α) (m : MapId) (x y : α) :
    (p.set m x).set m y = p.set m y := by cases m <;> rfl
@[simp] theorem PerMap.set_get {α : Type} (p : PerMap α) (m : MapId) :
    p.set m (p.get m) = p := by cases m <;> rfl
theorem PerMap.ext_get {α : Type} (p q : PerMap α) (h : ∀ m, p.get m = q.get m) : p = q := by
  cases p; cases q
  have h0 := h .m0; have h1 := h .m1
  simp only [PerMap.get] at h0 h1; subst h0; subst h1; rfl

@[simp] theorem PerChan.get_set_same {α : Type} (p : PerChan α) (c : Chan) (x : α) :
    (p.set c x).get c = x := by cases c <;> rfl
theorem PerChan.get_set_other {α : Type} (p : PerChan α) (c c' : Chan) (x : α) (h : c' ≠ c) :
    (p.set c x).get c' = p.get c' := by
  cases c <;> cases c' <;> first | rfl | exact absurd rfl h
theorem PerChan.get_set {α : Type} (p : PerChan α) (c c' : Chan) (x : α) :
    (p.set c x).get c' = if c' = c then x else p.get c' := by
  cases c <;> cases c' <;> rfl
@[simp] theorem PerChan.set_set {α : Type} (p : PerChan α) (c : Chan) (x y : α) :
    (p.set c x).set c y = p.set c y := by cases c <;> rfl
@[simp] theorem PerChan.set_get {α : Type} (p : PerChan α) (c : Chan) :
    p.set c (p.get c) = p := by cases c <;> rfl
theorem PerChan.ext_get {α : Type} (p q : PerChan α) (h : ∀ c, p.get c = q.get c) : p = q := by
  cases p; cases q
  have h0 := h .ch0; have h1 := h .ch1; have h2 := h .ch2
  simp only [PerChan.get] at h0 h1 h2; subst h0; subst h1; subst h2; rfl

/-! ## Members after a replacement -/

@[simp] theorem State.bank_setBank_same (s : State) (b : BankId) (x : Bank) :
    (s.setBank b x).bank b = x := PerBank.get_set_same _ _ _
theorem State.bank_setBank (s : State) (b b' : BankId) (x : Bank) :
    (s.setBank b x).bank b' = if b' = b then x else s.bank b' := PerBank.get_set _ _ _ _
@[simp] theorem State.map_setMap_same (s : State) (m : MapId) (x : ReductionMap) :
    (s.setMap m x).map m = x := PerMap.get_set_same _ _ _
theorem State.map_setMap (s : State) (m m' : MapId) (x : ReductionMap) :
    (s.setMap m x).map m' = if m' = m then x else s.map m' := PerMap.get_set _ _ _ _
@[simp] theorem State.chan_setChan_same (s : State) (c : Chan) (x : Channel) :
    (s.setChan c x).chan c = x := PerChan.get_set_same _ _ _
theorem State.chan_setChan (s : State) (c c' : Chan) (x : Channel) :
    (s.setChan c x).chan c' = if c' = c then x else s.chan c' := PerChan.get_set _ _ _ _
@[simp] theorem State.commitOf_setCommit_same (s : State) (b : BankId) (x : CommitState) :
    (s.setCommit b x).commitOf b = x := PerBank.get_set_same _ _ _
theorem State.commitOf_setCommit (s : State) (b b' : BankId) (x : CommitState) :
    (s.setCommit b x).commitOf b' = if b' = b then x else s.commitOf b' := PerBank.get_set _ _ _ _

/-! ## `setBank` -/

@[simp] theorem State.setBank_banks (s : State) (k : BankId) (x : Bank) :
    (s.setBank k x).banks = s.banks.set k x := rfl
@[simp] theorem State.setBank_uq (s : State) (k : BankId) (x : Bank) :
    (s.setBank k x).uq = s.uq := rfl
@[simp] theorem State.setBank_port (s : State) (k : BankId) (x : Bank) :
    (s.setBank k x).port = s.port := rfl
@[simp] theorem State.setBank_maps (s : State) (k : BankId) (x : Bank) :
    (s.setBank k x).maps = s.maps := rfl
@[simp] theorem State.setBank_engine (s : State) (k : BankId) (x : Bank) :
    (s.setBank k x).engine = s.engine := rfl
@[simp] theorem State.setBank_channels (s : State) (k : BankId) (x : Bank) :
    (s.setBank k x).channels = s.channels := rfl
@[simp] theorem State.setBank_scanout (s : State) (k : BankId) (x : Bank) :
    (s.setBank k x).scanout = s.scanout := rfl
@[simp] theorem State.setBank_eq (s : State) (k : BankId) (x : Bank) :
    (s.setBank k x).eq = s.eq := rfl
@[simp] theorem State.setBank_hostFaults (s : State) (k : BankId) (x : Bank) :
    (s.setBank k x).hostFaults = s.hostFaults := rfl
@[simp] theorem State.setBank_enables (s : State) (k : BankId) (x : Bank) :
    (s.setBank k x).enables = s.enables := rfl
@[simp] theorem State.setBank_timebase (s : State) (k : BankId) (x : Bank) :
    (s.setBank k x).timebase = s.timebase := rfl
@[simp] theorem State.setBank_bus (s : State) (k : BankId) (x : Bank) :
    (s.setBank k x).bus = s.bus := rfl
@[simp] theorem State.setBank_freeCount (s : State) (k : BankId) (x : Bank) :
    (s.setBank k x).freeCount = s.freeCount := rfl
@[simp] theorem State.setBank_pending (s : State) (k : BankId) (x : Bank) :
    (s.setBank k x).pending = s.pending := rfl
@[simp] theorem State.setBank_map (s : State) (k : BankId) (x : Bank) (m : MapId) :
    (s.setBank k x).map m = s.map m := rfl
@[simp] theorem State.setBank_chan (s : State) (k : BankId) (x : Bank) (c : Chan) :
    (s.setBank k x).chan c = s.chan c := rfl
@[simp] theorem State.setBank_commitOf (s : State) (k : BankId) (x : Bank) (b : BankId) :
    (s.setBank k x).commitOf b = s.commitOf b := rfl
@[simp] theorem State.setBank_sealedPending (s : State) (k : BankId) (x : Bank) (b : BankId) :
    (s.setBank k x).sealedPending b = s.sealedPending b := rfl
@[simp] theorem State.setBank_hasRole (s : State) (k : BankId) (x : Bank) (b : BankId) :
    (s.setBank k x).hasRole b = s.hasRole b := rfl
@[simp] theorem State.setBank_buildPending (s : State) (k : BankId) (x : Bank) (m : MapId) :
    (s.setBank k x).buildPending m = s.buildPending m := rfl

/-! ## `setMap` -/

@[simp] theorem State.setMap_banks (s : State) (k : MapId) (x : ReductionMap) :
    (s.setMap k x).banks = s.banks := rfl
@[simp] theorem State.setMap_uq (s : State) (k : MapId) (x : ReductionMap) :
    (s.setMap k x).uq = s.uq := rfl
@[simp] theorem State.setMap_port (s : State) (k : MapId) (x : ReductionMap) :
    (s.setMap k x).port = s.port := rfl
@[simp] theorem State.setMap_maps (s : State) (k : MapId) (x : ReductionMap) :
    (s.setMap k x).maps = s.maps.set k x := rfl
@[simp] theorem State.setMap_engine (s : State) (k : MapId) (x : ReductionMap) :
    (s.setMap k x).engine = s.engine := rfl
@[simp] theorem State.setMap_channels (s : State) (k : MapId) (x : ReductionMap) :
    (s.setMap k x).channels = s.channels := rfl
@[simp] theorem State.setMap_scanout (s : State) (k : MapId) (x : ReductionMap) :
    (s.setMap k x).scanout = s.scanout := rfl
@[simp] theorem State.setMap_eq (s : State) (k : MapId) (x : ReductionMap) :
    (s.setMap k x).eq = s.eq := rfl
@[simp] theorem State.setMap_hostFaults (s : State) (k : MapId) (x : ReductionMap) :
    (s.setMap k x).hostFaults = s.hostFaults := rfl
@[simp] theorem State.setMap_enables (s : State) (k : MapId) (x : ReductionMap) :
    (s.setMap k x).enables = s.enables := rfl
@[simp] theorem State.setMap_timebase (s : State) (k : MapId) (x : ReductionMap) :
    (s.setMap k x).timebase = s.timebase := rfl
@[simp] theorem State.setMap_bus (s : State) (k : MapId) (x : ReductionMap) :
    (s.setMap k x).bus = s.bus := rfl
@[simp] theorem State.setMap_freeCount (s : State) (k : MapId) (x : ReductionMap) :
    (s.setMap k x).freeCount = s.freeCount := rfl
@[simp] theorem State.setMap_pending (s : State) (k : MapId) (x : ReductionMap) :
    (s.setMap k x).pending = s.pending := rfl
@[simp] theorem State.setMap_bank (s : State) (k : MapId) (x : ReductionMap) (b : BankId) :
    (s.setMap k x).bank b = s.bank b := rfl
@[simp] theorem State.setMap_chan (s : State) (k : MapId) (x : ReductionMap) (c : Chan) :
    (s.setMap k x).chan c = s.chan c := rfl
@[simp] theorem State.setMap_commitOf (s : State) (k : MapId) (x : ReductionMap) (b : BankId) :
    (s.setMap k x).commitOf b = s.commitOf b := rfl
@[simp] theorem State.setMap_sealedPending (s : State) (k : MapId) (x : ReductionMap) (b : BankId) :
    (s.setMap k x).sealedPending b = s.sealedPending b := rfl
@[simp] theorem State.setMap_hasRole (s : State) (k : MapId) (x : ReductionMap) (b : BankId) :
    (s.setMap k x).hasRole b = s.hasRole b := rfl
@[simp] theorem State.setMap_buildPending (s : State) (k : MapId) (x : ReductionMap) (m : MapId) :
    (s.setMap k x).buildPending m = s.buildPending m := rfl

/-! ## `setChan` -/

@[simp] theorem State.setChan_banks (s : State) (k : Chan) (x : Channel) :
    (s.setChan k x).banks = s.banks := rfl
@[simp] theorem State.setChan_uq (s : State) (k : Chan) (x : Channel) :
    (s.setChan k x).uq = s.uq := rfl
@[simp] theorem State.setChan_port (s : State) (k : Chan) (x : Channel) :
    (s.setChan k x).port = s.port := rfl
@[simp] theorem State.setChan_maps (s : State) (k : Chan) (x : Channel) :
    (s.setChan k x).maps = s.maps := rfl
@[simp] theorem State.setChan_engine (s : State) (k : Chan) (x : Channel) :
    (s.setChan k x).engine = s.engine := rfl
@[simp] theorem State.setChan_channels (s : State) (k : Chan) (x : Channel) :
    (s.setChan k x).channels = s.channels.set k x := rfl
@[simp] theorem State.setChan_scanout (s : State) (k : Chan) (x : Channel) :
    (s.setChan k x).scanout = s.scanout := rfl
@[simp] theorem State.setChan_eq (s : State) (k : Chan) (x : Channel) :
    (s.setChan k x).eq = s.eq := rfl
@[simp] theorem State.setChan_hostFaults (s : State) (k : Chan) (x : Channel) :
    (s.setChan k x).hostFaults = s.hostFaults := rfl
@[simp] theorem State.setChan_enables (s : State) (k : Chan) (x : Channel) :
    (s.setChan k x).enables = s.enables := rfl
@[simp] theorem State.setChan_timebase (s : State) (k : Chan) (x : Channel) :
    (s.setChan k x).timebase = s.timebase := rfl
@[simp] theorem State.setChan_bus (s : State) (k : Chan) (x : Channel) :
    (s.setChan k x).bus = s.bus := rfl
@[simp] theorem State.setChan_freeCount (s : State) (k : Chan) (x : Channel) :
    (s.setChan k x).freeCount = s.freeCount := rfl
@[simp] theorem State.setChan_pending (s : State) (k : Chan) (x : Channel) :
    (s.setChan k x).pending = s.pending := rfl
@[simp] theorem State.setChan_bank (s : State) (k : Chan) (x : Channel) (b : BankId) :
    (s.setChan k x).bank b = s.bank b := rfl
@[simp] theorem State.setChan_map (s : State) (k : Chan) (x : Channel) (m : MapId) :
    (s.setChan k x).map m = s.map m := rfl
@[simp] theorem State.setChan_commitOf (s : State) (k : Chan) (x : Channel) (b : BankId) :
    (s.setChan k x).commitOf b = s.commitOf b := rfl
@[simp] theorem State.setChan_sealedPending (s : State) (k : Chan) (x : Channel) (b : BankId) :
    (s.setChan k x).sealedPending b = s.sealedPending b := rfl
@[simp] theorem State.setChan_hasRole (s : State) (k : Chan) (x : Channel) (b : BankId) :
    (s.setChan k x).hasRole b = s.hasRole b := rfl
@[simp] theorem State.setChan_buildPending (s : State) (k : Chan) (x : Channel) (m : MapId) :
    (s.setChan k x).buildPending m = s.buildPending m := rfl

/-! ## `setCommit` -/

@[simp] theorem State.setCommit_banks (s : State) (k : BankId) (x : CommitState) :
    (s.setCommit k x).banks = s.banks := rfl
@[simp] theorem State.setCommit_uq (s : State) (k : BankId) (x : CommitState) :
    (s.setCommit k x).uq = { s.uq with commit := s.uq.commit.set k x } := rfl
@[simp] theorem State.setCommit_port (s : State) (k : BankId) (x : CommitState) :
    (s.setCommit k x).port = s.port := rfl
@[simp] theorem State.setCommit_maps (s : State) (k : BankId) (x : CommitState) :
    (s.setCommit k x).maps = s.maps := rfl
@[simp] theorem State.setCommit_engine (s : State) (k : BankId) (x : CommitState) :
    (s.setCommit k x).engine = s.engine := rfl
@[simp] theorem State.setCommit_channels (s : State) (k : BankId) (x : CommitState) :
    (s.setCommit k x).channels = s.channels := rfl
@[simp] theorem State.setCommit_scanout (s : State) (k : BankId) (x : CommitState) :
    (s.setCommit k x).scanout = s.scanout := rfl
@[simp] theorem State.setCommit_eq (s : State) (k : BankId) (x : CommitState) :
    (s.setCommit k x).eq = s.eq := rfl
@[simp] theorem State.setCommit_hostFaults (s : State) (k : BankId) (x : CommitState) :
    (s.setCommit k x).hostFaults = s.hostFaults := rfl
@[simp] theorem State.setCommit_enables (s : State) (k : BankId) (x : CommitState) :
    (s.setCommit k x).enables = s.enables := rfl
@[simp] theorem State.setCommit_timebase (s : State) (k : BankId) (x : CommitState) :
    (s.setCommit k x).timebase = s.timebase := rfl
@[simp] theorem State.setCommit_bus (s : State) (k : BankId) (x : CommitState) :
    (s.setCommit k x).bus = s.bus := rfl
@[simp] theorem State.setCommit_freeCount (s : State) (k : BankId) (x : CommitState) :
    (s.setCommit k x).freeCount = s.freeCount := rfl
@[simp] theorem State.setCommit_pending (s : State) (k : BankId) (x : CommitState) :
    (s.setCommit k x).pending = s.pending := rfl
@[simp] theorem State.setCommit_bank (s : State) (k : BankId) (x : CommitState) (b : BankId) :
    (s.setCommit k x).bank b = s.bank b := rfl
@[simp] theorem State.setCommit_map (s : State) (k : BankId) (x : CommitState) (m : MapId) :
    (s.setCommit k x).map m = s.map m := rfl
@[simp] theorem State.setCommit_chan (s : State) (k : BankId) (x : CommitState) (c : Chan) :
    (s.setCommit k x).chan c = s.chan c := rfl
@[simp] theorem State.setCommit_hasRole (s : State) (k : BankId) (x : CommitState) (b : BankId) :
    (s.setCommit k x).hasRole b = s.hasRole b := rfl
@[simp] theorem State.setCommit_buildPending (s : State) (k : BankId) (x : CommitState) (m : MapId) :
    (s.setCommit k x).buildPending m = s.buildPending m := rfl

/-! ## `flag` -/

@[simp] theorem State.flag_banks (s : State) (f : HostFault) :
    (s.flag f).banks = s.banks := rfl
@[simp] theorem State.flag_uq (s : State) (f : HostFault) :
    (s.flag f).uq = s.uq := rfl
@[simp] theorem State.flag_port (s : State) (f : HostFault) :
    (s.flag f).port = s.port := rfl
@[simp] theorem State.flag_maps (s : State) (f : HostFault) :
    (s.flag f).maps = s.maps := rfl
@[simp] theorem State.flag_engine (s : State) (f : HostFault) :
    (s.flag f).engine = s.engine := rfl
@[simp] theorem State.flag_channels (s : State) (f : HostFault) :
    (s.flag f).channels = s.channels := rfl
@[simp] theorem State.flag_scanout (s : State) (f : HostFault) :
    (s.flag f).scanout = s.scanout := rfl
@[simp] theorem State.flag_eq (s : State) (f : HostFault) :
    (s.flag f).eq = s.eq := rfl
@[simp] theorem State.flag_hostFaults (s : State) (f : HostFault) :
    (s.flag f).hostFaults = s.hostFaults ||| f.mask := rfl
@[simp] theorem State.flag_enables (s : State) (f : HostFault) :
    (s.flag f).enables = s.enables := rfl
@[simp] theorem State.flag_timebase (s : State) (f : HostFault) :
    (s.flag f).timebase = s.timebase := rfl
@[simp] theorem State.flag_bus (s : State) (f : HostFault) :
    (s.flag f).bus = s.bus := rfl
@[simp] theorem State.flag_freeCount (s : State) (f : HostFault) :
    (s.flag f).freeCount = s.freeCount := rfl
@[simp] theorem State.flag_pending (s : State) (f : HostFault) :
    (s.flag f).pending = s.pending := rfl
@[simp] theorem State.flag_bank (s : State) (f : HostFault) (b : BankId) :
    (s.flag f).bank b = s.bank b := rfl
@[simp] theorem State.flag_map (s : State) (f : HostFault) (m : MapId) :
    (s.flag f).map m = s.map m := rfl
@[simp] theorem State.flag_chan (s : State) (f : HostFault) (c : Chan) :
    (s.flag f).chan c = s.chan c := rfl
@[simp] theorem State.flag_commitOf (s : State) (f : HostFault) (b : BankId) :
    (s.flag f).commitOf b = s.commitOf b := rfl
@[simp] theorem State.flag_sealedPending (s : State) (f : HostFault) (b : BankId) :
    (s.flag f).sealedPending b = s.sealedPending b := rfl
@[simp] theorem State.flag_hasRole (s : State) (f : HostFault) (b : BankId) :
    (s.flag f).hasRole b = s.hasRole b := rfl
@[simp] theorem State.flag_buildPending (s : State) (f : HostFault) (m : MapId) :
    (s.flag f).buildPending m = s.buildPending m := rfl

/-! ## `returns` -/

@[simp] theorem State.returns_banks (s : State) (v : Word) :
    (s.returns v).banks = s.banks := rfl
@[simp] theorem State.returns_uq (s : State) (v : Word) :
    (s.returns v).uq = s.uq := rfl
@[simp] theorem State.returns_port (s : State) (v : Word) :
    (s.returns v).port = s.port := rfl
@[simp] theorem State.returns_maps (s : State) (v : Word) :
    (s.returns v).maps = s.maps := rfl
@[simp] theorem State.returns_engine (s : State) (v : Word) :
    (s.returns v).engine = s.engine := rfl
@[simp] theorem State.returns_channels (s : State) (v : Word) :
    (s.returns v).channels = s.channels := rfl
@[simp] theorem State.returns_scanout (s : State) (v : Word) :
    (s.returns v).scanout = s.scanout := rfl
@[simp] theorem State.returns_eq (s : State) (v : Word) :
    (s.returns v).eq = s.eq := rfl
@[simp] theorem State.returns_hostFaults (s : State) (v : Word) :
    (s.returns v).hostFaults = s.hostFaults := rfl
@[simp] theorem State.returns_enables (s : State) (v : Word) :
    (s.returns v).enables = s.enables := rfl
@[simp] theorem State.returns_timebase (s : State) (v : Word) :
    (s.returns v).timebase = s.timebase := rfl
@[simp] theorem State.returns_bus (s : State) (v : Word) :
    (s.returns v).bus = { s.bus with readData := v } := rfl
@[simp] theorem State.returns_freeCount (s : State) (v : Word) :
    (s.returns v).freeCount = s.freeCount := rfl
@[simp] theorem State.returns_pending (s : State) (v : Word) :
    (s.returns v).pending = s.pending := rfl
@[simp] theorem State.returns_bank (s : State) (v : Word) (b : BankId) :
    (s.returns v).bank b = s.bank b := rfl
@[simp] theorem State.returns_map (s : State) (v : Word) (m : MapId) :
    (s.returns v).map m = s.map m := rfl
@[simp] theorem State.returns_chan (s : State) (v : Word) (c : Chan) :
    (s.returns v).chan c = s.chan c := rfl
@[simp] theorem State.returns_commitOf (s : State) (v : Word) (b : BankId) :
    (s.returns v).commitOf b = s.commitOf b := rfl
@[simp] theorem State.returns_sealedPending (s : State) (v : Word) (b : BankId) :
    (s.returns v).sealedPending b = s.sealedPending b := rfl
@[simp] theorem State.returns_hasRole (s : State) (v : Word) (b : BankId) :
    (s.returns v).hasRole b = s.hasRole b := rfl
@[simp] theorem State.returns_buildPending (s : State) (v : Word) (m : MapId) :
    (s.returns v).buildPending m = s.buildPending m := rfl

/-! ## `insertEvent` -/

@[simp] theorem State.insertEvent_banks (s : State) (r : EventRecord) :
    (s.insertEvent r).banks = s.banks := rfl
@[simp] theorem State.insertEvent_uq (s : State) (r : EventRecord) :
    (s.insertEvent r).uq = s.uq := rfl
@[simp] theorem State.insertEvent_port (s : State) (r : EventRecord) :
    (s.insertEvent r).port = s.port := rfl
@[simp] theorem State.insertEvent_maps (s : State) (r : EventRecord) :
    (s.insertEvent r).maps = s.maps := rfl
@[simp] theorem State.insertEvent_engine (s : State) (r : EventRecord) :
    (s.insertEvent r).engine = s.engine := rfl
@[simp] theorem State.insertEvent_channels (s : State) (r : EventRecord) :
    (s.insertEvent r).channels = s.channels := rfl
@[simp] theorem State.insertEvent_scanout (s : State) (r : EventRecord) :
    (s.insertEvent r).scanout = s.scanout := rfl
@[simp] theorem State.insertEvent_eq (s : State) (r : EventRecord) :
    (s.insertEvent r).eq = s.eq.insert r := rfl
@[simp] theorem State.insertEvent_hostFaults (s : State) (r : EventRecord) :
    (s.insertEvent r).hostFaults = s.hostFaults := rfl
@[simp] theorem State.insertEvent_enables (s : State) (r : EventRecord) :
    (s.insertEvent r).enables = s.enables := rfl
@[simp] theorem State.insertEvent_timebase (s : State) (r : EventRecord) :
    (s.insertEvent r).timebase = s.timebase := rfl
@[simp] theorem State.insertEvent_bus (s : State) (r : EventRecord) :
    (s.insertEvent r).bus = s.bus := rfl
@[simp] theorem State.insertEvent_freeCount (s : State) (r : EventRecord) :
    (s.insertEvent r).freeCount = s.freeCount := rfl
@[simp] theorem State.insertEvent_pending (s : State) (r : EventRecord) :
    (s.insertEvent r).pending = s.pending := rfl
@[simp] theorem State.insertEvent_bank (s : State) (r : EventRecord) (b : BankId) :
    (s.insertEvent r).bank b = s.bank b := rfl
@[simp] theorem State.insertEvent_map (s : State) (r : EventRecord) (m : MapId) :
    (s.insertEvent r).map m = s.map m := rfl
@[simp] theorem State.insertEvent_chan (s : State) (r : EventRecord) (c : Chan) :
    (s.insertEvent r).chan c = s.chan c := rfl
@[simp] theorem State.insertEvent_commitOf (s : State) (r : EventRecord) (b : BankId) :
    (s.insertEvent r).commitOf b = s.commitOf b := rfl
@[simp] theorem State.insertEvent_sealedPending (s : State) (r : EventRecord) (b : BankId) :
    (s.insertEvent r).sealedPending b = s.sealedPending b := rfl
@[simp] theorem State.insertEvent_hasRole (s : State) (r : EventRecord) (b : BankId) :
    (s.insertEvent r).hasRole b = s.hasRole b := rfl
@[simp] theorem State.insertEvent_buildPending (s : State) (r : EventRecord) (m : MapId) :
    (s.insertEvent r).buildPending m = s.buildPending m := rfl

/-! ## `addRequest` -/

@[simp] theorem State.addRequest_banks (s : State) (r : BuildRequest) :
    (s.addRequest r).banks = s.banks := rfl
@[simp] theorem State.addRequest_uq (s : State) (r : BuildRequest) :
    (s.addRequest r).uq = s.uq := rfl
@[simp] theorem State.addRequest_port (s : State) (r : BuildRequest) :
    (s.addRequest r).port = s.port := rfl
@[simp] theorem State.addRequest_maps (s : State) (r : BuildRequest) :
    (s.addRequest r).maps = s.maps := rfl
@[simp] theorem State.addRequest_engine (s : State) (r : BuildRequest) :
    (s.addRequest r).engine = { s.engine with requests := s.engine.requests ++ [r] } := rfl
@[simp] theorem State.addRequest_channels (s : State) (r : BuildRequest) :
    (s.addRequest r).channels = s.channels := rfl
@[simp] theorem State.addRequest_scanout (s : State) (r : BuildRequest) :
    (s.addRequest r).scanout = s.scanout := rfl
@[simp] theorem State.addRequest_eq (s : State) (r : BuildRequest) :
    (s.addRequest r).eq = s.eq := rfl
@[simp] theorem State.addRequest_hostFaults (s : State) (r : BuildRequest) :
    (s.addRequest r).hostFaults = s.hostFaults := rfl
@[simp] theorem State.addRequest_enables (s : State) (r : BuildRequest) :
    (s.addRequest r).enables = s.enables := rfl
@[simp] theorem State.addRequest_timebase (s : State) (r : BuildRequest) :
    (s.addRequest r).timebase = s.timebase := rfl
@[simp] theorem State.addRequest_bus (s : State) (r : BuildRequest) :
    (s.addRequest r).bus = s.bus := rfl
@[simp] theorem State.addRequest_freeCount (s : State) (r : BuildRequest) :
    (s.addRequest r).freeCount = s.freeCount := rfl
@[simp] theorem State.addRequest_pending (s : State) (r : BuildRequest) :
    (s.addRequest r).pending = s.pending := rfl
@[simp] theorem State.addRequest_bank (s : State) (r : BuildRequest) (b : BankId) :
    (s.addRequest r).bank b = s.bank b := rfl
@[simp] theorem State.addRequest_map (s : State) (r : BuildRequest) (m : MapId) :
    (s.addRequest r).map m = s.map m := rfl
@[simp] theorem State.addRequest_chan (s : State) (r : BuildRequest) (c : Chan) :
    (s.addRequest r).chan c = s.chan c := rfl
@[simp] theorem State.addRequest_commitOf (s : State) (r : BuildRequest) (b : BankId) :
    (s.addRequest r).commitOf b = s.commitOf b := rfl
@[simp] theorem State.addRequest_sealedPending (s : State) (r : BuildRequest) (b : BankId) :
    (s.addRequest r).sealedPending b = s.sealedPending b := rfl
@[simp] theorem State.addRequest_hasRole (s : State) (r : BuildRequest) (b : BankId) :
    (s.addRequest r).hasRole b = s.hasRole b := rfl

/-! ## `enginePosts` -/

@[simp] theorem State.enginePosts_banks (s : State) (r : EventRecord) :
    (s.enginePosts r).banks = s.banks := rfl
@[simp] theorem State.enginePosts_uq (s : State) (r : EventRecord) :
    (s.enginePosts r).uq = s.uq := rfl
@[simp] theorem State.enginePosts_port (s : State) (r : EventRecord) :
    (s.enginePosts r).port = s.port := rfl
@[simp] theorem State.enginePosts_maps (s : State) (r : EventRecord) :
    (s.enginePosts r).maps = s.maps := rfl
@[simp] theorem State.enginePosts_engine (s : State) (r : EventRecord) :
    (s.enginePosts r).engine = { s.engine with state := .post r } := rfl
@[simp] theorem State.enginePosts_channels (s : State) (r : EventRecord) :
    (s.enginePosts r).channels = s.channels := rfl
@[simp] theorem State.enginePosts_scanout (s : State) (r : EventRecord) :
    (s.enginePosts r).scanout = s.scanout := rfl
@[simp] theorem State.enginePosts_eq (s : State) (r : EventRecord) :
    (s.enginePosts r).eq = s.eq := rfl
@[simp] theorem State.enginePosts_hostFaults (s : State) (r : EventRecord) :
    (s.enginePosts r).hostFaults = s.hostFaults := rfl
@[simp] theorem State.enginePosts_enables (s : State) (r : EventRecord) :
    (s.enginePosts r).enables = s.enables := rfl
@[simp] theorem State.enginePosts_timebase (s : State) (r : EventRecord) :
    (s.enginePosts r).timebase = s.timebase := rfl
@[simp] theorem State.enginePosts_bus (s : State) (r : EventRecord) :
    (s.enginePosts r).bus = s.bus := rfl
@[simp] theorem State.enginePosts_freeCount (s : State) (r : EventRecord) :
    (s.enginePosts r).freeCount = s.freeCount := rfl
@[simp] theorem State.enginePosts_pending (s : State) (r : EventRecord) :
    (s.enginePosts r).pending = s.pending := rfl
@[simp] theorem State.enginePosts_bank (s : State) (r : EventRecord) (b : BankId) :
    (s.enginePosts r).bank b = s.bank b := rfl
@[simp] theorem State.enginePosts_map (s : State) (r : EventRecord) (m : MapId) :
    (s.enginePosts r).map m = s.map m := rfl
@[simp] theorem State.enginePosts_chan (s : State) (r : EventRecord) (c : Chan) :
    (s.enginePosts r).chan c = s.chan c := rfl
@[simp] theorem State.enginePosts_commitOf (s : State) (r : EventRecord) (b : BankId) :
    (s.enginePosts r).commitOf b = s.commitOf b := rfl
@[simp] theorem State.enginePosts_sealedPending (s : State) (r : EventRecord) (b : BankId) :
    (s.enginePosts r).sealedPending b = s.sealedPending b := rfl
@[simp] theorem State.enginePosts_hasRole (s : State) (r : EventRecord) (b : BankId) :
    (s.enginePosts r).hasRole b = s.hasRole b := rfl
@[simp] theorem State.enginePosts_buildPending (s : State) (r : EventRecord) (m : MapId) :
    (s.enginePosts r).buildPending m = s.buildPending m := rfl

/-! ## `withRecords` -/

@[simp] theorem State.withRecords_banks (s : State) (l : List UpdateRecord) :
    (s.withRecords l).banks = s.banks := rfl
@[simp] theorem State.withRecords_uq (s : State) (l : List UpdateRecord) :
    (s.withRecords l).uq = { s.uq with records := l } := rfl
@[simp] theorem State.withRecords_port (s : State) (l : List UpdateRecord) :
    (s.withRecords l).port = s.port := rfl
@[simp] theorem State.withRecords_maps (s : State) (l : List UpdateRecord) :
    (s.withRecords l).maps = s.maps := rfl
@[simp] theorem State.withRecords_engine (s : State) (l : List UpdateRecord) :
    (s.withRecords l).engine = s.engine := rfl
@[simp] theorem State.withRecords_channels (s : State) (l : List UpdateRecord) :
    (s.withRecords l).channels = s.channels := rfl
@[simp] theorem State.withRecords_scanout (s : State) (l : List UpdateRecord) :
    (s.withRecords l).scanout = s.scanout := rfl
@[simp] theorem State.withRecords_eq (s : State) (l : List UpdateRecord) :
    (s.withRecords l).eq = s.eq := rfl
@[simp] theorem State.withRecords_hostFaults (s : State) (l : List UpdateRecord) :
    (s.withRecords l).hostFaults = s.hostFaults := rfl
@[simp] theorem State.withRecords_enables (s : State) (l : List UpdateRecord) :
    (s.withRecords l).enables = s.enables := rfl
@[simp] theorem State.withRecords_timebase (s : State) (l : List UpdateRecord) :
    (s.withRecords l).timebase = s.timebase := rfl
@[simp] theorem State.withRecords_bus (s : State) (l : List UpdateRecord) :
    (s.withRecords l).bus = s.bus := rfl
@[simp] theorem State.withRecords_freeCount (s : State) (l : List UpdateRecord) :
    (s.withRecords l).freeCount = s.freeCount := rfl
@[simp] theorem State.withRecords_pending (s : State) (l : List UpdateRecord) :
    (s.withRecords l).pending = s.pending := rfl
@[simp] theorem State.withRecords_bank (s : State) (l : List UpdateRecord) (b : BankId) :
    (s.withRecords l).bank b = s.bank b := rfl
@[simp] theorem State.withRecords_map (s : State) (l : List UpdateRecord) (m : MapId) :
    (s.withRecords l).map m = s.map m := rfl
@[simp] theorem State.withRecords_chan (s : State) (l : List UpdateRecord) (c : Chan) :
    (s.withRecords l).chan c = s.chan c := rfl
@[simp] theorem State.withRecords_commitOf (s : State) (l : List UpdateRecord) (b : BankId) :
    (s.withRecords l).commitOf b = s.commitOf b := rfl
@[simp] theorem State.withRecords_sealedPending (s : State) (l : List UpdateRecord) (b : BankId) :
    (s.withRecords l).sealedPending b = s.sealedPending b := rfl
@[simp] theorem State.withRecords_hasRole (s : State) (l : List UpdateRecord) (b : BankId) :
    (s.withRecords l).hasRole b = s.hasRole b := rfl
@[simp] theorem State.withRecords_buildPending (s : State) (l : List UpdateRecord) (m : MapId) :
    (s.withRecords l).buildPending m = s.buildPending m := rfl

/-! ## `withPort` -/

@[simp] theorem State.withPort_banks (s : State) (p : AccessPort) :
    (s.withPort p).banks = s.banks := rfl
@[simp] theorem State.withPort_uq (s : State) (p : AccessPort) :
    (s.withPort p).uq = s.uq := rfl
@[simp] theorem State.withPort_port (s : State) (p : AccessPort) :
    (s.withPort p).port = p := rfl
@[simp] theorem State.withPort_maps (s : State) (p : AccessPort) :
    (s.withPort p).maps = s.maps := rfl
@[simp] theorem State.withPort_engine (s : State) (p : AccessPort) :
    (s.withPort p).engine = s.engine := rfl
@[simp] theorem State.withPort_channels (s : State) (p : AccessPort) :
    (s.withPort p).channels = s.channels := rfl
@[simp] theorem State.withPort_scanout (s : State) (p : AccessPort) :
    (s.withPort p).scanout = s.scanout := rfl
@[simp] theorem State.withPort_eq (s : State) (p : AccessPort) :
    (s.withPort p).eq = s.eq := rfl
@[simp] theorem State.withPort_hostFaults (s : State) (p : AccessPort) :
    (s.withPort p).hostFaults = s.hostFaults := rfl
@[simp] theorem State.withPort_enables (s : State) (p : AccessPort) :
    (s.withPort p).enables = s.enables := rfl
@[simp] theorem State.withPort_timebase (s : State) (p : AccessPort) :
    (s.withPort p).timebase = s.timebase := rfl
@[simp] theorem State.withPort_bus (s : State) (p : AccessPort) :
    (s.withPort p).bus = s.bus := rfl
@[simp] theorem State.withPort_freeCount (s : State) (p : AccessPort) :
    (s.withPort p).freeCount = s.freeCount := rfl
@[simp] theorem State.withPort_pending (s : State) (p : AccessPort) :
    (s.withPort p).pending = s.pending := rfl
@[simp] theorem State.withPort_bank (s : State) (p : AccessPort) (b : BankId) :
    (s.withPort p).bank b = s.bank b := rfl
@[simp] theorem State.withPort_map (s : State) (p : AccessPort) (m : MapId) :
    (s.withPort p).map m = s.map m := rfl
@[simp] theorem State.withPort_chan (s : State) (p : AccessPort) (c : Chan) :
    (s.withPort p).chan c = s.chan c := rfl
@[simp] theorem State.withPort_commitOf (s : State) (p : AccessPort) (b : BankId) :
    (s.withPort p).commitOf b = s.commitOf b := rfl
@[simp] theorem State.withPort_sealedPending (s : State) (p : AccessPort) (b : BankId) :
    (s.withPort p).sealedPending b = s.sealedPending b := rfl
@[simp] theorem State.withPort_hasRole (s : State) (p : AccessPort) (b : BankId) :
    (s.withPort p).hasRole b = s.hasRole b := rfl
@[simp] theorem State.withPort_buildPending (s : State) (p : AccessPort) (m : MapId) :
    (s.withPort p).buildPending m = s.buildPending m := rfl

/-! ## `withEq` -/

@[simp] theorem State.withEq_banks (s : State) (q : EventQueue) :
    (s.withEq q).banks = s.banks := rfl
@[simp] theorem State.withEq_uq (s : State) (q : EventQueue) :
    (s.withEq q).uq = s.uq := rfl
@[simp] theorem State.withEq_port (s : State) (q : EventQueue) :
    (s.withEq q).port = s.port := rfl
@[simp] theorem State.withEq_maps (s : State) (q : EventQueue) :
    (s.withEq q).maps = s.maps := rfl
@[simp] theorem State.withEq_engine (s : State) (q : EventQueue) :
    (s.withEq q).engine = s.engine := rfl
@[simp] theorem State.withEq_channels (s : State) (q : EventQueue) :
    (s.withEq q).channels = s.channels := rfl
@[simp] theorem State.withEq_scanout (s : State) (q : EventQueue) :
    (s.withEq q).scanout = s.scanout := rfl
@[simp] theorem State.withEq_eq (s : State) (q : EventQueue) :
    (s.withEq q).eq = q := rfl
@[simp] theorem State.withEq_hostFaults (s : State) (q : EventQueue) :
    (s.withEq q).hostFaults = s.hostFaults := rfl
@[simp] theorem State.withEq_enables (s : State) (q : EventQueue) :
    (s.withEq q).enables = s.enables := rfl
@[simp] theorem State.withEq_timebase (s : State) (q : EventQueue) :
    (s.withEq q).timebase = s.timebase := rfl
@[simp] theorem State.withEq_bus (s : State) (q : EventQueue) :
    (s.withEq q).bus = s.bus := rfl
@[simp] theorem State.withEq_freeCount (s : State) (q : EventQueue) :
    (s.withEq q).freeCount = s.freeCount := rfl
@[simp] theorem State.withEq_pending (s : State) (q : EventQueue) :
    (s.withEq q).pending = s.pending := rfl
@[simp] theorem State.withEq_bank (s : State) (q : EventQueue) (b : BankId) :
    (s.withEq q).bank b = s.bank b := rfl
@[simp] theorem State.withEq_map (s : State) (q : EventQueue) (m : MapId) :
    (s.withEq q).map m = s.map m := rfl
@[simp] theorem State.withEq_chan (s : State) (q : EventQueue) (c : Chan) :
    (s.withEq q).chan c = s.chan c := rfl
@[simp] theorem State.withEq_commitOf (s : State) (q : EventQueue) (b : BankId) :
    (s.withEq q).commitOf b = s.commitOf b := rfl
@[simp] theorem State.withEq_sealedPending (s : State) (q : EventQueue) (b : BankId) :
    (s.withEq q).sealedPending b = s.sealedPending b := rfl
@[simp] theorem State.withEq_hasRole (s : State) (q : EventQueue) (b : BankId) :
    (s.withEq q).hasRole b = s.hasRole b := rfl
@[simp] theorem State.withEq_buildPending (s : State) (q : EventQueue) (m : MapId) :
    (s.withEq q).buildPending m = s.buildPending m := rfl

/-! ## `countFrame` -/

@[simp] theorem State.countFrame_banks (s : State) :
    (s.countFrame).banks = s.banks := rfl
@[simp] theorem State.countFrame_uq (s : State) :
    (s.countFrame).uq = s.uq := rfl
@[simp] theorem State.countFrame_port (s : State) :
    (s.countFrame).port = s.port := rfl
@[simp] theorem State.countFrame_maps (s : State) :
    (s.countFrame).maps = s.maps := rfl
@[simp] theorem State.countFrame_engine (s : State) :
    (s.countFrame).engine = s.engine := rfl
@[simp] theorem State.countFrame_channels (s : State) :
    (s.countFrame).channels = s.channels := rfl
@[simp] theorem State.countFrame_scanout (s : State) :
    (s.countFrame).scanout = { s.scanout with frame := s.scanout.frame + 1 } := rfl
@[simp] theorem State.countFrame_eq (s : State) :
    (s.countFrame).eq = s.eq := rfl
@[simp] theorem State.countFrame_hostFaults (s : State) :
    (s.countFrame).hostFaults = s.hostFaults := rfl
@[simp] theorem State.countFrame_enables (s : State) :
    (s.countFrame).enables = s.enables := rfl
@[simp] theorem State.countFrame_timebase (s : State) :
    (s.countFrame).timebase = s.timebase := rfl
@[simp] theorem State.countFrame_bus (s : State) :
    (s.countFrame).bus = s.bus := rfl
@[simp] theorem State.countFrame_freeCount (s : State) :
    (s.countFrame).freeCount = s.freeCount := rfl
@[simp] theorem State.countFrame_pending (s : State) :
    (s.countFrame).pending = s.pending := rfl
@[simp] theorem State.countFrame_bank (s : State) (b : BankId) :
    (s.countFrame).bank b = s.bank b := rfl
@[simp] theorem State.countFrame_map (s : State) (m : MapId) :
    (s.countFrame).map m = s.map m := rfl
@[simp] theorem State.countFrame_chan (s : State) (c : Chan) :
    (s.countFrame).chan c = s.chan c := rfl
@[simp] theorem State.countFrame_commitOf (s : State) (b : BankId) :
    (s.countFrame).commitOf b = s.commitOf b := rfl
@[simp] theorem State.countFrame_sealedPending (s : State) (b : BankId) :
    (s.countFrame).sealedPending b = s.sealedPending b := rfl
@[simp] theorem State.countFrame_hasRole (s : State) (b : BankId) :
    (s.countFrame).hasRole b = s.hasRole b := rfl
@[simp] theorem State.countFrame_buildPending (s : State) (m : MapId) :
    (s.countFrame).buildPending m = s.buildPending m := rfl

end Sys2Proof.Machine
end

