-- ==== Sys2Proof/Laws/Ops.lean ====
section
/-! SUPPORT. One lemma for each shared operation that says what it can do, and which parts of the state
it leaves, so that a later proof cites it and unfolds nothing. -/

namespace Sys2Proof.Machine

/-! ## The host bus -/

/-- A host access takes effect when no read is stretched. -/
theorem onBus_of_free {s : State} (f : State → State) (h : s.port.stretched = false) :
    onBus s f = .next (f s) := by simp [onBus, h]

/-- A host access has no effect while a read is stretched. -/
theorem onBus_of_stretched {s : State} (f : State → State) (h : s.port.stretched = true) :
    onBus s f = .next s := by simp [onBus, h]

theorem onBus_next (s : State) (f : State → State) : ∃ t, onBus s f = .next t := by
  unfold onBus; split <;> exact ⟨_, rfl⟩

/-- No command of the part stops: every meaning answers a next state. -/
theorem exec_next (i : Instr) (s : State) : ∃ t, exec i s = .next t := by
  cases i with
  | frameStart =>
    simp only [exec, execFrameStart]; split <;> first | exact ⟨_, rfl⟩ | (split <;> exact ⟨_, rfl⟩)
  | insertionEvent => simp only [exec, execInsertionEvent]; split <;> exact ⟨_, rfl⟩
  | fetchCompletion =>
    simp only [exec, execFetchCompletion]; split <;> first | exact ⟨_, rfl⟩ | (split <;> exact ⟨_, rfl⟩)
  | segmentStartAttempt c => simp only [exec, execSegmentStartAttempt]; split <;> exact ⟨_, rfl⟩
  | pixelStep c => simp only [exec, execPixelStep]; split <;> exact ⟨_, rfl⟩
  | cellCompletion =>
    simp only [exec, execCellCompletion]
    split <;> first | exact ⟨_, rfl⟩ |
      (split <;> first | exact ⟨_, rfl⟩ | (split <;> exact ⟨_, rfl⟩))
  | fullReset | lookup | tick | stalled | overdue | buildStart => exact ⟨_, rfl⟩
  | _ =>
    simp only [exec, execApAddr, execApDataRead, execApDataWrite, execBldCmdAbort, execBldCmdIgnored,
        execBldCmdRequest, execChCmdAbort, execChCmdIgnored, execChCmdReset, execChCmdResume,
        execChIn, execChOut, execCtxWrite, execEqCtrl, execEqHead0, execEqHead1, execEqNext,
        execEqPop, execHostFaults, execInterruptEnables, execInvalidAccess, execJobPush,
        execRegisterWrite, execScanoutDisable, execScanoutEnable, execScnCtrl, execSoftReset,
        execStgCmdDiscard, execStgCmdIgnored, execStgCmdSeal, execStgData, execStgHdr,
        execTickDiv, execWrongTypeAccess]
    exact onBus_next _ _

/-! ## The port's invalidation and the notice of a bank's change -/

/-- An invalidation changes the port alone, and only for its target (R65). -/
theorem State.invalidate_spec (s : State) (t : PortTarget) :
    s.invalidate t = { s with port := if s.port.target = t
      then { s.port with items := [], filling := true } else s.port } := by
  unfold State.invalidate; split <;> rfl

/-- The notice at one map changes that map's state and may append its request (R82, R83). -/
theorem State.noticeMap_spec (s : State) (b : BankId) (m : MapId) :
    s.noticeMap b m =
      { s with
        maps := if s.noticed b m then s.maps.set m { s.map m with state := .stale } else s.maps
        engine := if s.placesRequest b m
          then { s.engine with
            requests := s.engine.requests ++ [{ map := m, params := (s.map m).params }] }
          else s.engine } := by
  unfold State.noticeMap; split <;> split <;> rfl

/-- The notice changes no more than the maps, the engine's requests, the port and the free counter
(R25). -/
theorem State.notice_frame (s : State) (b : BankId) :
    s.notice b = { s with maps := (s.notice b).maps, engine := (s.notice b).engine
                          port := (s.notice b).port, freeCount := (s.notice b).freeCount } := by
  unfold State.notice State.noticeMaps
  split
  · dsimp only
    split <;> simp only [State.invalidate_spec, State.noticeMap_spec]
  · simp only [State.invalidate_spec, State.noticeMap_spec]

/-- Waking changes the channels alone (R120). -/
theorem State.wakeBank_spec (s : State) (b : BankId) :
    s.wakeBank b = { s with channels := (s.wakeBank b).channels } := rfl
theorem State.wakeMap_spec (s : State) (m : MapId) :
    s.wakeMap m = { s with channels := (s.wakeMap m).channels } := rfl

theorem State.wakeBank_chan (s : State) (b : BankId) (c : Chan) :
    (s.wakeBank b).chan c = (s.chan c).wakeForBank b := by cases c <;> rfl
theorem State.wakeMap_chan (s : State) (m : MapId) (c : Chan) :
    (s.wakeMap m).chan c = (s.chan c).wakeForMap m := by cases c <;> rfl

/-! ## Commits and holds -/

/-- A commit is attempted: it is put off for want of room for its record, or taken (R54). -/
theorem State.attemptCommit_cases (s : State) (b : BankId) :
    ((s.uq.asksNotice b = true ∧ s.eq.hasRoom .routine = false) ∧
      s.attemptCommit b = s.setCommit b (if s.hasRole b then .pending else .deferred)) ∨
    (¬(s.uq.asksNotice b = true ∧ s.eq.hasRoom .routine = false) ∧
      s.attemptCommit b = s.commit b) := by
  by_cases h : s.uq.asksNotice b = true ∧ s.eq.hasRoom .routine = false
  · exact .inl ⟨h, by simp [State.attemptCommit, h.1, h.2]⟩
  · refine .inr ⟨h, ?_⟩
    have : (s.uq.asksNotice b && !s.eq.hasRoom .routine) = false := by
      revert h; cases s.uq.asksNotice b <;> cases s.eq.hasRoom .routine <;> simp
    simp [State.attemptCommit, this]

/-- A bank judged as a non-display bank is left, or has its commit attempted (R19, R49). -/
theorem State.judgeBank_cases (s : State) (b : BankId) :
    (¬(s.commitOf b = .pending ∧ (s.bank b).holders = 0 ∧ s.hasRole b = false) ∧
      s.judgeBank b = s) ∨
    ((s.commitOf b = .pending ∧ (s.bank b).holders = 0 ∧ s.hasRole b = false) ∧
      s.judgeBank b = s.attemptCommit b) := by
  unfold State.judgeBank; split
  · exact .inr ⟨‹_›, rfl⟩
  · exact .inl ⟨‹_›, rfl⟩

/-- A bank judged as the display bank is left, or has its commit attempted (R50). -/
theorem State.judgeDisplay_cases (s : State) (b : BankId) :
    (¬(s.commitOf b = .pending ∧ (s.bank b).holders = 0) ∧ s.judgeDisplay b = s) ∨
    ((s.commitOf b = .pending ∧ (s.bank b).holders = 0) ∧
      s.judgeDisplay b = s.attemptCommit b) := by
  unfold State.judgeDisplay; split
  · exact .inr ⟨‹_›, rfl⟩
  · exact .inl ⟨‹_›, rfl⟩

/-- Taking a segment's holds changes the holder counts alone (R119). -/
theorem State.takeHolds_spec (s : State) (x : Context) :
    s.takeHolds x =
      { s with
        banks := if x.src = .i8 then s.banks.set x.bank
          { s.bank x.bank with holders := (s.bank x.bank).holders + 1 } else s.banks
        maps := if x.dst = .i8 then s.maps.set x.map
          { s.map x.map with holders := (s.map x.map).holders + 1 } else s.maps } := by
  unfold State.takeHolds; split <;> split <;> rfl

/-- Releasing a segment's holds: the map's count falls, then the bank is released (R17, R84). -/
theorem State.releaseHolds_spec (s : State) (x : Context) :
    ∃ s1 : State,
      s1 = { s with maps := if x.dst = .i8
        then s.maps.set x.map { s.map x.map with holders := (s.map x.map).holders - 1 }
        else s.maps } ∧
      s.releaseHolds x = if x.src = .i8 then s1.releaseBank x.bank else s1 := by
  refine ⟨_, rfl, ?_⟩
  unfold State.releaseHolds; split <;> rfl

/-! ## The build engine -/

/-- The engine's look leaves the state, or starts a startable request of an IDLE engine (R97). -/
theorem State.lookForBuild_cases (s : State) :
    s.lookForBuild = s ∨
    ∃ r ∈ s.engine.requests, s.engine.state = .idle ∧ s.startable r = true ∧
      s.lookForBuild = s.startBuild r := by
  unfold State.lookForBuild
  split
  · rename_i hidle
    split
    · rename_i r hr
      exact .inr ⟨r, List.mem_of_find?_eq_some hr, hidle, List.find?_some hr, rfl⟩
    · exact .inl rfl
  · exact .inl rfl
  · exact .inl rfl

/-- A build start enters BUILDING, or ends at once when no entry is eligible (R98, R99). -/
theorem State.startBuild_cases (s : State) (r : BuildRequest) :
    s.startBuild r = s.enterBuilding r ∨
      (r.params.eligible ((s.enterBuilding r).bank r.params.source).entries = [] ∧
        s.startBuild r = (s.enterBuilding r).noCandidates r.map) := by
  unfold State.startBuild
  dsimp only
  split
  · exact .inr ⟨‹_›, rfl⟩
  · exact .inl rfl

/-! ## Channels -/

/-- A fault replaces the channel, and in RUN releases its holds (R125). -/
theorem State.faultJob_cases (s : State) (c : Chan) (f : FaultCode) :
    ((s.chan c).state ≠ .run ∧ s.faultJob c f = s.setChan c ((s.chan c).faulted c f)) ∨
    ((s.chan c).state = .run ∧
      s.faultJob c f = (s.setChan c ((s.chan c).faulted c f)).releaseHolds (s.chan c).ctx) := by
  unfold State.faultJob
  dsimp only
  split
  · exact .inr ⟨‹_›, rfl⟩
  · exact .inl ⟨‹_›, rfl⟩

/-- The next job: IDLE without a descriptor, else WAIT with the head current and the path afresh
(R117). -/
theorem Channel.nextJob_cases (x : Channel) :
    (x.jobs = [] ∧ x.nextJob = { x with state := .idle }) ∨
    ∃ j rest, x.jobs = j :: rest ∧
      x.nextJob = { x with state := .wait .start, segment := 0, tag := j.tag
                           path := PixelPath.fresh, stall := 0 } := by
  unfold Channel.nextJob
  split
  · exact .inl ⟨‹_›, rfl⟩
  · exact .inr ⟨_, _, ‹_›, rfl⟩

/-! ## What the larger operations leave

Fields that a commit, a release, a fault, a build start and the engine's look never change. -/

@[simp] theorem State.invalidate_banks (s : State) (t : PortTarget) :
    (s.invalidate t).banks = s.banks := by
  rw [State.invalidate_spec]
@[simp] theorem State.invalidate_uq (s : State) (t : PortTarget) :
    (s.invalidate t).uq = s.uq := by
  rw [State.invalidate_spec]
@[simp] theorem State.invalidate_maps (s : State) (t : PortTarget) :
    (s.invalidate t).maps = s.maps := by
  rw [State.invalidate_spec]
@[simp] theorem State.invalidate_engine (s : State) (t : PortTarget) :
    (s.invalidate t).engine = s.engine := by
  rw [State.invalidate_spec]
@[simp] theorem State.invalidate_channels (s : State) (t : PortTarget) :
    (s.invalidate t).channels = s.channels := by
  rw [State.invalidate_spec]
@[simp] theorem State.invalidate_scanout (s : State) (t : PortTarget) :
    (s.invalidate t).scanout = s.scanout := by
  rw [State.invalidate_spec]
@[simp] theorem State.invalidate_eq (s : State) (t : PortTarget) :
    (s.invalidate t).eq = s.eq := by
  rw [State.invalidate_spec]
@[simp] theorem State.invalidate_hostFaults (s : State) (t : PortTarget) :
    (s.invalidate t).hostFaults = s.hostFaults := by
  rw [State.invalidate_spec]
@[simp] theorem State.invalidate_enables (s : State) (t : PortTarget) :
    (s.invalidate t).enables = s.enables := by
  rw [State.invalidate_spec]
@[simp] theorem State.invalidate_timebase (s : State) (t : PortTarget) :
    (s.invalidate t).timebase = s.timebase := by
  rw [State.invalidate_spec]
@[simp] theorem State.invalidate_bus (s : State) (t : PortTarget) :
    (s.invalidate t).bus = s.bus := by
  rw [State.invalidate_spec]
@[simp] theorem State.invalidate_freeCount (s : State) (t : PortTarget) :
    (s.invalidate t).freeCount = s.freeCount := by
  rw [State.invalidate_spec]
@[simp] theorem State.invalidate_pending (s : State) (t : PortTarget) :
    (s.invalidate t).pending = s.pending := by
  rw [State.invalidate_spec]

@[simp] theorem State.notice_banks (s : State) (b : BankId) :
    (s.notice b).banks = s.banks := by
  rw [State.notice_frame]
@[simp] theorem State.notice_uq (s : State) (b : BankId) :
    (s.notice b).uq = s.uq := by
  rw [State.notice_frame]
@[simp] theorem State.notice_channels (s : State) (b : BankId) :
    (s.notice b).channels = s.channels := by
  rw [State.notice_frame]
@[simp] theorem State.notice_scanout (s : State) (b : BankId) :
    (s.notice b).scanout = s.scanout := by
  rw [State.notice_frame]
@[simp] theorem State.notice_eq (s : State) (b : BankId) :
    (s.notice b).eq = s.eq := by
  rw [State.notice_frame]
@[simp] theorem State.notice_hostFaults (s : State) (b : BankId) :
    (s.notice b).hostFaults = s.hostFaults := by
  rw [State.notice_frame]
@[simp] theorem State.notice_enables (s : State) (b : BankId) :
    (s.notice b).enables = s.enables := by
  rw [State.notice_frame]
@[simp] theorem State.notice_timebase (s : State) (b : BankId) :
    (s.notice b).timebase = s.timebase := by
  rw [State.notice_frame]
@[simp] theorem State.notice_bus (s : State) (b : BankId) :
    (s.notice b).bus = s.bus := by
  rw [State.notice_frame]
@[simp] theorem State.notice_pending (s : State) (b : BankId) :
    (s.notice b).pending = s.pending := by
  rw [State.notice_frame]

@[simp] theorem State.commit_scanout (s : State) (b : BankId) :
    (s.commit b).scanout = s.scanout := by
  show (State.notice _ b).scanout = _
  rw [State.notice_scanout]; split <;> rfl
@[simp] theorem State.commit_hostFaults (s : State) (b : BankId) :
    (s.commit b).hostFaults = s.hostFaults := by
  show (State.notice _ b).hostFaults = _
  rw [State.notice_hostFaults]; split <;> rfl
@[simp] theorem State.commit_enables (s : State) (b : BankId) :
    (s.commit b).enables = s.enables := by
  show (State.notice _ b).enables = _
  rw [State.notice_enables]; split <;> rfl
@[simp] theorem State.commit_timebase (s : State) (b : BankId) :
    (s.commit b).timebase = s.timebase := by
  show (State.notice _ b).timebase = _
  rw [State.notice_timebase]; split <;> rfl
@[simp] theorem State.commit_bus (s : State) (b : BankId) :
    (s.commit b).bus = s.bus := by
  show (State.notice _ b).bus = _
  rw [State.notice_bus]; split <;> rfl
@[simp] theorem State.commit_pending (s : State) (b : BankId) :
    (s.commit b).pending = s.pending := by
  show (State.notice _ b).pending = _
  rw [State.notice_pending]; split <;> rfl

@[simp] theorem State.attemptCommit_scanout (s : State) (b : BankId) :
    (s.attemptCommit b).scanout = s.scanout := by
  rcases s.attemptCommit_cases b with ⟨_, h⟩ | ⟨_, h⟩ <;> simp [h]
@[simp] theorem State.attemptCommit_hostFaults (s : State) (b : BankId) :
    (s.attemptCommit b).hostFaults = s.hostFaults := by
  rcases s.attemptCommit_cases b with ⟨_, h⟩ | ⟨_, h⟩ <;> simp [h]
@[simp] theorem State.attemptCommit_enables (s : State) (b : BankId) :
    (s.attemptCommit b).enables = s.enables := by
  rcases s.attemptCommit_cases b with ⟨_, h⟩ | ⟨_, h⟩ <;> simp [h]
@[simp] theorem State.attemptCommit_timebase (s : State) (b : BankId) :
    (s.attemptCommit b).timebase = s.timebase := by
  rcases s.attemptCommit_cases b with ⟨_, h⟩ | ⟨_, h⟩ <;> simp [h]
@[simp] theorem State.attemptCommit_bus (s : State) (b : BankId) :
    (s.attemptCommit b).bus = s.bus := by
  rcases s.attemptCommit_cases b with ⟨_, h⟩ | ⟨_, h⟩ <;> simp [h]
@[simp] theorem State.attemptCommit_pending (s : State) (b : BankId) :
    (s.attemptCommit b).pending = s.pending := by
  rcases s.attemptCommit_cases b with ⟨_, h⟩ | ⟨_, h⟩ <;> simp [h]

@[simp] theorem State.judgeBank_scanout (s : State) (b : BankId) :
    (s.judgeBank b).scanout = s.scanout := by
  rcases s.judgeBank_cases b with ⟨_, h⟩ | ⟨_, h⟩ <;> simp [h]
@[simp] theorem State.judgeBank_hostFaults (s : State) (b : BankId) :
    (s.judgeBank b).hostFaults = s.hostFaults := by
  rcases s.judgeBank_cases b with ⟨_, h⟩ | ⟨_, h⟩ <;> simp [h]
@[simp] theorem State.judgeBank_enables (s : State) (b : BankId) :
    (s.judgeBank b).enables = s.enables := by
  rcases s.judgeBank_cases b with ⟨_, h⟩ | ⟨_, h⟩ <;> simp [h]
@[simp] theorem State.judgeBank_timebase (s : State) (b : BankId) :
    (s.judgeBank b).timebase = s.timebase := by
  rcases s.judgeBank_cases b with ⟨_, h⟩ | ⟨_, h⟩ <;> simp [h]
@[simp] theorem State.judgeBank_bus (s : State) (b : BankId) :
    (s.judgeBank b).bus = s.bus := by
  rcases s.judgeBank_cases b with ⟨_, h⟩ | ⟨_, h⟩ <;> simp [h]
@[simp] theorem State.judgeBank_pending (s : State) (b : BankId) :
    (s.judgeBank b).pending = s.pending := by
  rcases s.judgeBank_cases b with ⟨_, h⟩ | ⟨_, h⟩ <;> simp [h]

@[simp] theorem State.judgeDisplay_scanout (s : State) (b : BankId) :
    (s.judgeDisplay b).scanout = s.scanout := by
  rcases s.judgeDisplay_cases b with ⟨_, h⟩ | ⟨_, h⟩ <;> simp [h]
@[simp] theorem State.judgeDisplay_hostFaults (s : State) (b : BankId) :
    (s.judgeDisplay b).hostFaults = s.hostFaults := by
  rcases s.judgeDisplay_cases b with ⟨_, h⟩ | ⟨_, h⟩ <;> simp [h]
@[simp] theorem State.judgeDisplay_enables (s : State) (b : BankId) :
    (s.judgeDisplay b).enables = s.enables := by
  rcases s.judgeDisplay_cases b with ⟨_, h⟩ | ⟨_, h⟩ <;> simp [h]
@[simp] theorem State.judgeDisplay_timebase (s : State) (b : BankId) :
    (s.judgeDisplay b).timebase = s.timebase := by
  rcases s.judgeDisplay_cases b with ⟨_, h⟩ | ⟨_, h⟩ <;> simp [h]
@[simp] theorem State.judgeDisplay_bus (s : State) (b : BankId) :
    (s.judgeDisplay b).bus = s.bus := by
  rcases s.judgeDisplay_cases b with ⟨_, h⟩ | ⟨_, h⟩ <;> simp [h]
@[simp] theorem State.judgeDisplay_pending (s : State) (b : BankId) :
    (s.judgeDisplay b).pending = s.pending := by
  rcases s.judgeDisplay_cases b with ⟨_, h⟩ | ⟨_, h⟩ <;> simp [h]

@[simp] theorem State.releaseBank_scanout (s : State) (b : BankId) :
    (s.releaseBank b).scanout = s.scanout := by
  simp [State.releaseBank]
@[simp] theorem State.releaseBank_hostFaults (s : State) (b : BankId) :
    (s.releaseBank b).hostFaults = s.hostFaults := by
  simp [State.releaseBank]
@[simp] theorem State.releaseBank_enables (s : State) (b : BankId) :
    (s.releaseBank b).enables = s.enables := by
  simp [State.releaseBank]
@[simp] theorem State.releaseBank_timebase (s : State) (b : BankId) :
    (s.releaseBank b).timebase = s.timebase := by
  simp [State.releaseBank]
@[simp] theorem State.releaseBank_bus (s : State) (b : BankId) :
    (s.releaseBank b).bus = s.bus := by
  simp [State.releaseBank]
@[simp] theorem State.releaseBank_pending (s : State) (b : BankId) :
    (s.releaseBank b).pending = s.pending := by
  simp [State.releaseBank]

@[simp] theorem State.releaseHolds_scanout (s : State) (x : Context) :
    (s.releaseHolds x).scanout = s.scanout := by
  obtain ⟨_, h, h'⟩ := s.releaseHolds_spec x; rw [h']; split <;> simp [h]
@[simp] theorem State.releaseHolds_hostFaults (s : State) (x : Context) :
    (s.releaseHolds x).hostFaults = s.hostFaults := by
  obtain ⟨_, h, h'⟩ := s.releaseHolds_spec x; rw [h']; split <;> simp [h]
@[simp] theorem State.releaseHolds_enables (s : State) (x : Context) :
    (s.releaseHolds x).enables = s.enables := by
  obtain ⟨_, h, h'⟩ := s.releaseHolds_spec x; rw [h']; split <;> simp [h]
@[simp] theorem State.releaseHolds_timebase (s : State) (x : Context) :
    (s.releaseHolds x).timebase = s.timebase := by
  obtain ⟨_, h, h'⟩ := s.releaseHolds_spec x; rw [h']; split <;> simp [h]
@[simp] theorem State.releaseHolds_bus (s : State) (x : Context) :
    (s.releaseHolds x).bus = s.bus := by
  obtain ⟨_, h, h'⟩ := s.releaseHolds_spec x; rw [h']; split <;> simp [h]
@[simp] theorem State.releaseHolds_pending (s : State) (x : Context) :
    (s.releaseHolds x).pending = s.pending := by
  obtain ⟨_, h, h'⟩ := s.releaseHolds_spec x; rw [h']; split <;> simp [h]

@[simp] theorem State.faultJob_scanout (s : State) (c : Chan) (f : FaultCode) :
    (s.faultJob c f).scanout = s.scanout := by
  rcases s.faultJob_cases c f with ⟨_, h⟩ | ⟨_, h⟩ <;> simp [h]
@[simp] theorem State.faultJob_hostFaults (s : State) (c : Chan) (f : FaultCode) :
    (s.faultJob c f).hostFaults = s.hostFaults := by
  rcases s.faultJob_cases c f with ⟨_, h⟩ | ⟨_, h⟩ <;> simp [h]
@[simp] theorem State.faultJob_enables (s : State) (c : Chan) (f : FaultCode) :
    (s.faultJob c f).enables = s.enables := by
  rcases s.faultJob_cases c f with ⟨_, h⟩ | ⟨_, h⟩ <;> simp [h]
@[simp] theorem State.faultJob_timebase (s : State) (c : Chan) (f : FaultCode) :
    (s.faultJob c f).timebase = s.timebase := by
  rcases s.faultJob_cases c f with ⟨_, h⟩ | ⟨_, h⟩ <;> simp [h]
@[simp] theorem State.faultJob_bus (s : State) (c : Chan) (f : FaultCode) :
    (s.faultJob c f).bus = s.bus := by
  rcases s.faultJob_cases c f with ⟨_, h⟩ | ⟨_, h⟩ <;> simp [h]
@[simp] theorem State.faultJob_pending (s : State) (c : Chan) (f : FaultCode) :
    (s.faultJob c f).pending = s.pending := by
  rcases s.faultJob_cases c f with ⟨_, h⟩ | ⟨_, h⟩ <;> simp [h]

@[simp] theorem State.enterBuilding_uq (s : State) (r : BuildRequest) :
    (s.enterBuilding r).uq = s.uq := by
  simp [State.enterBuilding, State.holdBank]
@[simp] theorem State.enterBuilding_channels (s : State) (r : BuildRequest) :
    (s.enterBuilding r).channels = s.channels := by
  simp [State.enterBuilding, State.holdBank]
@[simp] theorem State.enterBuilding_scanout (s : State) (r : BuildRequest) :
    (s.enterBuilding r).scanout = s.scanout := by
  simp [State.enterBuilding, State.holdBank]
@[simp] theorem State.enterBuilding_eq (s : State) (r : BuildRequest) :
    (s.enterBuilding r).eq = s.eq := by
  simp [State.enterBuilding, State.holdBank]
@[simp] theorem State.enterBuilding_hostFaults (s : State) (r : BuildRequest) :
    (s.enterBuilding r).hostFaults = s.hostFaults := by
  simp [State.enterBuilding, State.holdBank]
@[simp] theorem State.enterBuilding_enables (s : State) (r : BuildRequest) :
    (s.enterBuilding r).enables = s.enables := by
  simp [State.enterBuilding, State.holdBank]
@[simp] theorem State.enterBuilding_timebase (s : State) (r : BuildRequest) :
    (s.enterBuilding r).timebase = s.timebase := by
  simp [State.enterBuilding, State.holdBank]
@[simp] theorem State.enterBuilding_bus (s : State) (r : BuildRequest) :
    (s.enterBuilding r).bus = s.bus := by
  simp [State.enterBuilding, State.holdBank]
@[simp] theorem State.enterBuilding_freeCount (s : State) (r : BuildRequest) :
    (s.enterBuilding r).freeCount = s.freeCount := by
  simp [State.enterBuilding, State.holdBank]
@[simp] theorem State.enterBuilding_pending (s : State) (r : BuildRequest) :
    (s.enterBuilding r).pending = s.pending := by
  simp [State.enterBuilding, State.holdBank]

@[simp] theorem State.noCandidates_scanout (s : State) (m : MapId) :
    (s.noCandidates m).scanout = s.scanout := by
  simp [State.noCandidates, State.emptyMap, State.wakeMap]
@[simp] theorem State.noCandidates_hostFaults (s : State) (m : MapId) :
    (s.noCandidates m).hostFaults = s.hostFaults := by
  simp [State.noCandidates, State.emptyMap, State.wakeMap]
@[simp] theorem State.noCandidates_enables (s : State) (m : MapId) :
    (s.noCandidates m).enables = s.enables := by
  simp [State.noCandidates, State.emptyMap, State.wakeMap]
@[simp] theorem State.noCandidates_timebase (s : State) (m : MapId) :
    (s.noCandidates m).timebase = s.timebase := by
  simp [State.noCandidates, State.emptyMap, State.wakeMap]
@[simp] theorem State.noCandidates_bus (s : State) (m : MapId) :
    (s.noCandidates m).bus = s.bus := by
  simp [State.noCandidates, State.emptyMap, State.wakeMap]
@[simp] theorem State.noCandidates_pending (s : State) (m : MapId) :
    (s.noCandidates m).pending = s.pending := by
  simp [State.noCandidates, State.emptyMap, State.wakeMap]

@[simp] theorem State.startBuild_scanout (s : State) (r : BuildRequest) :
    (s.startBuild r).scanout = s.scanout := by
  rcases s.startBuild_cases r with h | ⟨_, h⟩ <;> simp [h]
@[simp] theorem State.startBuild_hostFaults (s : State) (r : BuildRequest) :
    (s.startBuild r).hostFaults = s.hostFaults := by
  rcases s.startBuild_cases r with h | ⟨_, h⟩ <;> simp [h]
@[simp] theorem State.startBuild_enables (s : State) (r : BuildRequest) :
    (s.startBuild r).enables = s.enables := by
  rcases s.startBuild_cases r with h | ⟨_, h⟩ <;> simp [h]
@[simp] theorem State.startBuild_timebase (s : State) (r : BuildRequest) :
    (s.startBuild r).timebase = s.timebase := by
  rcases s.startBuild_cases r with h | ⟨_, h⟩ <;> simp [h]
@[simp] theorem State.startBuild_bus (s : State) (r : BuildRequest) :
    (s.startBuild r).bus = s.bus := by
  rcases s.startBuild_cases r with h | ⟨_, h⟩ <;> simp [h]
@[simp] theorem State.startBuild_pending (s : State) (r : BuildRequest) :
    (s.startBuild r).pending = s.pending := by
  rcases s.startBuild_cases r with h | ⟨_, h⟩ <;> simp [h]

@[simp] theorem State.lookForBuild_scanout (s : State) :
    (s.lookForBuild).scanout = s.scanout := by
  rcases s.lookForBuild_cases with h | ⟨_, _, _, _, h⟩ <;> simp [h]
@[simp] theorem State.lookForBuild_hostFaults (s : State) :
    (s.lookForBuild).hostFaults = s.hostFaults := by
  rcases s.lookForBuild_cases with h | ⟨_, _, _, _, h⟩ <;> simp [h]
@[simp] theorem State.lookForBuild_enables (s : State) :
    (s.lookForBuild).enables = s.enables := by
  rcases s.lookForBuild_cases with h | ⟨_, _, _, _, h⟩ <;> simp [h]
@[simp] theorem State.lookForBuild_timebase (s : State) :
    (s.lookForBuild).timebase = s.timebase := by
  rcases s.lookForBuild_cases with h | ⟨_, _, _, _, h⟩ <;> simp [h]
@[simp] theorem State.lookForBuild_bus (s : State) :
    (s.lookForBuild).bus = s.bus := by
  rcases s.lookForBuild_cases with h | ⟨_, _, _, _, h⟩ <;> simp [h]
@[simp] theorem State.lookForBuild_pending (s : State) :
    (s.lookForBuild).pending = s.pending := by
  rcases s.lookForBuild_cases with h | ⟨_, _, _, _, h⟩ <;> simp [h]

end Sys2Proof.Machine
end

