-- ==== Sys2Proof/Tests/Slice0.lean ====
section
/-! SUPPORT. Tests: ill-formed commands that WellFormed refuses, the manual's worked examples and
boundary values, one command at a time, and for each statement with hypotheses a concrete state and
operands that meet them. -/

namespace Sys2Proof.Tests

open Sys2Proof Sys2Proof.Machine Sys2Proof.Safety

/-! ## States the tests start from -/

/-- The state after a command. -/
def after (i : Instr) (s : State) : State :=
  match exec i s with
  | .next t => t
  | .fault _ => s
  | .refused _ => s

def white : Entry := { a := 255, r := 255, g := 255, b := 255 }
def routineRecord : EventRecord :=
  { kind := .commit, cls := .routine, source := 0, tag := 0, detail1 := 1, detail2 := 0 }
def urgentRecord : EventRecord :=
  { kind := .jobFault, cls := .urgent, source := 0, tag := 7, detail1 := 3, detail2 := 0 }
def stamped (r : EventRecord) : StampedRecord := { record := r, stamp := 0 }

/-- The event queue with `n` ROUTINE records. -/
def routines (n : Nat) : EventQueue :=
  { EventQueue.reset with routine := List.replicate n (stamped routineRecord), stamp := 9 }

def withEvents (q : EventQueue) (s : State) : State := { s with eq := q }

def updateRecord (b : BankId) (state : RecordState) (notify : Bool) : UpdateRecord :=
  { bank := b, start := 255, count := 1, colours := if state = .opened then [] else [white]
    state := state, notify := notify }

/-- A record of the bank waits for its commit event. -/
def withSealed (b : BankId) (notify : Bool) (s : State) : State :=
  { s with uq := { records := s.uq.records ++ [updateRecord b .sealed notify]
                   commit := s.uq.commit.set b .pending } }

def withRecord (b : BankId) (state : RecordState) (s : State) : State :=
  { s with uq := { s.uq with records := s.uq.records ++ [updateRecord b state false] } }

/-- The unit is ON with the bank displayed. -/
def showing (b next : BankId) : State :=
  { State.reset with scanout := { state := .on, current := b, next := next, frame := 65535 } }

def job : Job := { count := 2, width := 1, tag := 5, urgent := true, segNotify := true }

def i8Context : Context := { Context.reset with src := .i8, bank := .b1, dst := .a8888, stallLimit := 1 }

def channelIn (x : Context) (state : ChanState) : Channel :=
  { Channel.reset with ctx := x, jobs := [job], state := state, tag := 5 }

/-- CH0 is in RUN on bank B1, without input. -/
def running : State :=
  (State.reset.setChan .ch0 (channelIn i8Context .run)).setBank .b1 { Bank.reset with holders := 1 }

/-- A map of eight cells whose best index is 0 and whose second is 1 with weight 3. -/
def readyMap : ReductionMap :=
  { ReductionMap.reset with
    state := .ready, generation := 6
    params := { MapParams.reset with source := .b1, autoRebuild := true, transparent := some 4 }
    cells := List.replicate 8 { best := 0, second := some 1, weight := 3 } }

/-- The parameters of the manual's worked build (06 section 6.10). -/
def workedParams : MapParams :=
  { MapParams.reset with source := .b1, last := 4, skipTransparent := true, transparent := some 4 }

/-- The entries of bank B1 in the worked build (Table 6-4). -/
def workedEntries : List (Nat × Entry) :=
  [(0, { a := 255, r := 0, g := 0, b := 0 }), (1, white), (2, { a := 255, r := 255, g := 0, b := 0 }),
   (3, { a := 255, r := 0, g := 0, b := 255 }), (4, { a := 0, r := 128, g := 128, b := 128 })]

/-- A map with cell 0 of the worked build (Table 6-5). -/
def workedMap : ReductionMap :=
  { ReductionMap.reset with params := workedParams
                            cells := [{ best := 0, second := some 2, weight := 3 }] }

/-- The key settings of 08 section 8.9. -/
def keyContext : Context :=
  { Context.reset with keyEnR := true, keyEnG := true, keyEnB := true
                       keyLo := { a := 0, r := 248, g := 0, b := 248 }
                       keyHi := { a := 0, r := 255, g := 3, b := 255 } }

/-- The worked build with the cells below `n` done. -/
def building (n : Nat) : State :=
  let s := State.reset.setBank .b1 { entries := workedEntries, generation := 12, holders := 1 }
  let t := s.setMap .m1
    { ReductionMap.reset with state := .building, generation := 6, params := workedParams
                              cells := List.replicate n { best := 0, second := none, weight := 0 } }
  { t with engine := { t.engine with state := .building, current := .m1, progress := n } }

def request (m : MapId) (b : BankId) : BuildRequest :=
  { map := m, params := { MapParams.reset with source := b } }

def withRequests (l : List BuildRequest) (s : State) : State :=
  { s with engine := { s.engine with requests := l } }

/-! ## Ill-formed commands -/

theorem test_invalid_access_at_a_register_is_ill_formed :
    (Instr.invalidAccess false 32 0x000).wf = false := by decide
theorem test_invalid_access_outside_the_window_is_ill_formed :
    (Instr.invalidAccess true 32 1024).wf = false := by decide
theorem test_invalid_access_narrow_is_well_formed :
    (Instr.invalidAccess true 16 0x000).wf = true := by decide
theorem test_write_of_a_writable_register_is_no_wrong_type :
    (Instr.wrongTypeAccess true .tickDiv).wf = false := by decide
theorem test_read_of_a_readable_register_is_no_wrong_type :
    (Instr.wrongTypeAccess false .tickDiv).wf = false := by decide
theorem test_seal_code_is_not_ignored : (Instr.stgCmdIgnored 1).wf = false := by decide
theorem test_discard_code_is_not_ignored : (Instr.stgCmdIgnored 2).wf = false := by decide
theorem test_request_code_is_not_ignored : (Instr.bldCmdIgnored 1).wf = false := by decide
theorem test_abort_code_is_not_ignored : (Instr.bldCmdIgnored 2).wf = false := by decide
theorem test_channel_reset_code_is_not_ignored :
    (Instr.chCmdIgnored .ch0 3).wf = false := by decide

/-! ## The manual's tables and worked examples -/

/-- Tables 11-1 and 11-3: CH2's CTX_KEY_HI is at 0x180 + 0x08. -/
theorem test_offset_of_a_channel_register :
    decodeAccess { write := true, width := 32, offset := 0x188, value := 7 } =
      some (.ctxWrite .ch2 .keyHi 7) := by decide
/-- Table 11-6: STG_CMD with code 1, bank 2 and notify. -/
theorem test_seal_word :
    decodeAccess { write := true, width := 32, offset := 0x048, value := 0x121 } =
      some (.stgCmdSeal .b2 true) := by decide
/-- 01 section 1.9: the entry (119, 153, 51, 255) leaves as A1555 (0, 19, 6, 31). -/
theorem test_a4444_pixel_leaves_as_a1555 :
    packA1555 { a := 119, r := 153, g := 51, b := 255 } =
      BitVec.ofNat 32 (19 * 1024 + 6 * 32 + 31) := by decide
/-- Table 5-8, the first entry. -/
theorem test_cell_of_a_colour :
    (MapParams.cellOf { MapParams.reset with nr := 3, ng := 4 }
      { a := 255, r := 200, g := 90, b := 30 }) = 5 ∧
    (MapParams.centre { MapParams.reset with nr := 3, ng := 4 } 5) =
      { r := 213, g := 96, b := 64 } := by decide
/-- 05 section 5.8: the weight of distances 201 and 801. -/
theorem test_weight : weightOf 201 801 = 3 := by decide
/-- Table 6-5, cell 3: best 1, second 2, weight 7. -/
theorem test_worked_build_cell :
    workedParams.searchCell workedEntries 3 =
      some { best := 1, second := some 2, weight := 7 } := by decide
/-- Table 6-6, step 9: M1 READY at generation 7, B1 released, BUILD_DONE with generations 7 and 12. -/
theorem test_worked_build_completes :
    ((after .cellCompletion (building 7)).map .m1).state = .ready ∧
    ((after .cellCompletion (building 7)).map .m1).generation = 7 ∧
    ((after .cellCompletion (building 7)).bank .b1).holders = 0 ∧
    (after .cellCompletion (building 7)).engine.state =
      .post { kind := .buildDone, cls := .routine, source := 1, tag := 0, detail1 := 7,
              detail2 := 12 } := by decide
/-- R105: an abort keeps the progress and leaves no valid cell. -/
theorem test_abort_of_the_build :
    (after (.bldCmdAbort .m1) (building 7)).engine.progress = 7 ∧
    ((after (.bldCmdAbort .m1) (building 7)).map .m1).cells = [] := by decide
/-- Table 8-6, pixels 1, 2 and 3: best at threshold 8, second at threshold 2, the transparent index. -/
theorem test_dithered_reduction :
    workedMap.reduce true
      { a := 255, r := 60, g := 60, b := 60 } 1 0 = 0 ∧
    workedMap.reduce true
      { a := 255, r := 60, g := 60, b := 60 } 2 0 = 2 ∧
    workedMap.reduce true { a := 0, r := 200, g := 200, b := 200 } 3 0 = 4 := by decide
/-- Table 8-3: expanded magenta is keyed, and (255, 255, 255, 255) is not, in the key range given. -/
theorem test_key_range :
    (keyContext.keyStep { a := 255, r := 255, g := 0, b := 255 }).a = 0 ∧
    (keyContext.keyStep white).a = 255 := by decide
/-- Table 8-4, pixel 5: the held pixel 4 is released with alpha 0, then pixel 5 with the edge alpha. -/
theorem test_row_end_releases_two :
    (Context.edge { Context.reset with edgeEn := true, edgeAlpha := 136 } 6 6 5 white
      (some { number := 4, entry := { white with a := 0 }, leftTransparent := false })) =
      ([{ number := 4, entry := { white with a := 0 } },
        { number := 5, entry := { white with a := 136 } }], none) := by decide
/-- 05 section 5.8: 10000 pixels in segments of 4096 are 3, the last ending at pixel 9999. -/
theorem test_segments_of_ten_thousand :
    segmentCount 4096 10000 = 3 ∧ segmentLast 4096 10000 1 = 8191 ∧
      segmentLast 4096 10000 2 = 9999 := by decide

/-! ## Boundary values, one command each -/

/-- R182: the default divider is 50000 and the write of 0 is refused. -/
theorem test_tick_div_zero_is_refused :
    (after (.tickDiv 0x10000) State.reset).flagged .settingRefused = true ∧
    (after (.tickDiv 1) State.reset).timebase = { div := 1, count := 0 } := by decide
/-- R126: a limit of 1 is reached at the first tick of a blocked path, and the fault releases B1. -/
theorem test_stall_at_the_limit :
    ((after .tick running).chan .ch0).lastFault = some .stalled ∧
    ((after .tick running).bank .b1).holders = 0 ∧
    after (.stalled .ch0) running = { after .tick running with timebase := running.timebase } := by
  decide
/-- R173: a timeout of 1 is reached at the first tick. -/
theorem test_overdue_at_the_timeout :
    (after .overdue (withEvents { routines 1 with timeout := 1 } State.reset)).eq.overdue = true ∧
    (after .overdue (withEvents { routines 1 with timeout := 2 } State.reset)).eq.overdue = false := by
  decide
/-- R39: a run of 2 from index 255 is refused, and one of 1 is accepted. -/
theorem test_header_run :
    (after (.stgHdr 0x2FF) State.reset).flagged .stageRefused = true ∧
    (after (.stgHdr 0x1FF) State.reset).uq.records.length = 1 := by decide
/-- R44, R30: a SEAL on an idle bank commits in the same event; entry 255 takes the colour. -/
theorem test_seal_commits_at_once :
    Palette.read ((after (.stgCmdSeal .b1 false) (withRecord .b1 .closed State.reset)).bank .b1).entries
      255 = white ∧
    ((after (.stgCmdSeal .b1 false) (withRecord .b1 .closed State.reset)).bank .b1).generation = 1 := by
  decide
/-- R54: with 24 ROUTINE records a commit that asks for notice is deferred. -/
theorem test_commit_without_room_is_deferred :
    (after (.stgCmdSeal .b1 true)
      (withEvents (routines 24) (withRecord .b1 .closed State.reset))).commitOf .b1 = .deferred := by
  decide
/-- R46: a DISCARD leaves the sealed records. -/
theorem test_discard_keeps_sealed :
    (after (.stgCmdDiscard .b1)
      (withRecord .b1 .closed (withSealed .b1 false State.reset))).uq.records =
      [updateRecord .b1 .sealed false] := by decide
/-- R61: the index of a bank wraps from 255 to 0, that of a map from 511 to 0. -/
theorem test_index_wraps :
    (after (.apDataWrite 0) (after (.apAddr 0x000FF) State.reset)).port.index = 0 ∧
    (after (.apDataWrite 0) (after (.apAddr 0x401FF) State.reset)).port.index = 0 ∧
    (after (.apDataWrite 0) (after (.apAddr 0x400FF) State.reset)).port.index = 256 := by decide
/-- R27: a direct write of an entry and its removal again, each a change of the bank. -/
theorem test_direct_write :
    ((after (.apDataWrite 0xFFFFFFFF) State.reset).bank .b0).entries = [(0, white)] ∧
    ((after (.apDataWrite 0xFFFFFFFF) State.reset).bank .b0).generation = 1 := by decide
/-- R67: a read without an item is stretched, and its fetch completion returns the item. -/
theorem test_stretched_read :
    (after .apDataRead State.reset).port.stretched = true ∧
    (after .fetchCompletion (after .apDataRead State.reset)).port.stretched = false ∧
    (after .fetchCompletion (after .apDataRead State.reset)).port.index = 1 := by decide
/-- R160: an ARMED unit answers 0, an ON one the entry. -/
theorem test_lookup :
    (after (.lookup 0) (showing .b0 .b0)).bus.lookupData = 0 ∧
    (after (.lookup 1) ((showing .b1 .b1).setBank .b1 { Bank.reset with entries := workedEntries })).bus
      = { readData := 0, lookupData := 0xFFFFFFFF } := by decide
/-- R158, R155: the frame counter wraps, and ARMED becomes ON with the next display bank. -/
theorem test_frame_start :
    (after .frameStart (showing .b0 .b2)).scanout =
      { state := .on, current := .b2, next := .b2, frame := 0 } := by decide
/-- R156: a disable of a unit that is ON commits what its bank had waiting. -/
theorem test_disable_commits :
    ((after (.scanoutDisable false { urg := false, rtn := false, flt := false })
      (withSealed .b1 false (showing .b1 .b1))).bank .b1).generation = 1 := by decide
/-- R94: a request with the reset parameters starts at once; with NR 9 it is refused. -/
theorem test_request :
    (after .bldCmdRequest State.reset).engine.state = .building ∧
    (after .bldCmdRequest (after (.registerWrite .bldReq1 0x229) State.reset)).flagged .buildRefused =
      true := by decide
/-- R99: with skip-transparent and an all-transparent bank the build ends at its start. -/
theorem test_no_candidates :
    (after .bldCmdRequest (after (.registerWrite .bldReq1 0x1222) State.reset)).engine.state =
      .post (buildFault .m0 .noCandidates) := by decide
/-- R112: format code 5 is refused, 4 accepted. -/
theorem test_context_format :
    (after (.ctxWrite .ch0 .fmt 0x05) State.reset).flagged .settingRefused = true ∧
    ((after (.ctxWrite .ch0 .fmt 0x40) State.reset).chan .ch0).ctx.dst = .i8 := by decide
/-- R114: a width of 4096 is accepted, 4097 refused. -/
theorem test_push_width :
    ((after (.jobPush .ch1 0x105) (State.reset.setChan .ch1
      { Channel.reset with jobCount := 1, jobWidth := 4096 })).chan .ch1).state = .wait .start ∧
    (after (.jobPush .ch1 0x105) (State.reset.setChan .ch1
      { Channel.reset with jobCount := 1, jobWidth := 4097 })).flagged .jobRefused = true := by decide
/-- R119: an EMPTY map faults the job with code 4. -/
theorem test_segment_start_without_a_map :
    ((after (.segmentStartAttempt .ch0) (State.reset.setChan .ch0
      (channelIn { Context.reset with dst := .i8 } (.wait .start)))).chan .ch0).lastFault =
      some .mapUnusable := by decide
/-- R151, R122: two A8888 pixels of a job with SEG_LEN 0; the second ends it. -/
theorem test_pixel_steps :
    ((after (.pixelStep .ch0) (State.reset.setChan .ch0
      { channelIn Context.reset .run with inFifo := [7, 9] })).chan .ch0).outFifo = [7] ∧
    ((after (.pixelStep .ch0) (after (.pixelStep .ch0) (State.reset.setChan .ch0
      { channelIn Context.reset .run with inFifo := [7, 9] }))).chan .ch0).state =
      .post { kind := .jobDone, cls := .urgent, source := 0, tag := 5, detail1 := 2, detail2 := 1 } := by
  decide
/-- R131: the sixteenth word is accepted and the seventeenth faults a working job. -/
theorem test_input_fifo :
    ((after (.chIn .ch0 1) (running.setChan .ch0
      { channelIn i8Context .run with inFifo := List.replicate 15 0 })).chan .ch0).inFifo.length = 16 ∧
    ((after (.chIn .ch0 1) (running.setChan .ch0
      { channelIn i8Context .run with inFifo := List.replicate 16 0 })).chan .ch0).lastFault =
      some .overrun := by decide
/-- R133: an empty output FIFO reads 0 with OUTPUT_EMPTY. -/
theorem test_output_empty : (after (.chOut .ch0) State.reset).flagged .outputEmpty = true := by decide
/-- R129, R130, R134: ABORT faults, RESUME needs HALTED, RESET releases the hold. -/
theorem test_channel_commands :
    ((after (.chCmdAbort .ch0) running).chan .ch0).lastFault = some .aborted ∧
    (after (.chCmdResume .ch0) running).flagged .cmdIgnored = true ∧
    ((after (.chCmdReset .ch0) running).bank .b1).holders = 0 := by decide
/-- R169: the engine in POST is served before a channel in POST. -/
theorem test_arbiter_order :
    (after .insertionEvent { State.reset.setChan .ch0 (channelIn i8Context (.post urgentRecord)) with
      engine := { BuildEngine.reset with state := .post (buildFault .m0 .aborted) } }).engine.state =
      .idle := by decide
/-- R165, R166, 10 section 10.7: an URGENT record that arrives during a claim does not displace it. -/
theorem test_claim_is_pinned :
    (after .eqHead0 (withEvents { routines 1 with claim := some .routine
                                                  urgent := [stamped urgentRecord] } State.reset)).eq.claim
      = some .routine ∧
    (after .eqNext (withEvents { routines 1 with claim := some .routine
                                                 urgent := [stamped urgentRecord] } State.reset)).eq.claim
      = some .urgent := by decide
/-- R167: a pop without a claim sets POP_NO_CLAIM. -/
theorem test_pop_without_claim : (after (.eqPop 0) State.reset).flagged .popNoClaim = true := by decide
/-- R172: threshold 24 is accepted, 25 and 0 refused. -/
theorem test_threshold :
    (after (.eqCtrl 24) State.reset).eq.threshold = 24 ∧
    (after (.eqCtrl 25) State.reset).flagged .settingRefused = true ∧
    (after (.eqCtrl 32) State.reset).flagged .settingRefused = true := by decide
/-- R171: a host fault drives IRQ only with FLT_EN. -/
theorem test_irq_follows_fault :
    (after (.interruptEnables false false { urg := false, rtn := false, flt := true })
      (after (.eqPop 0) State.reset)).irq = true ∧
    (after (.eqPop 0) State.reset).irq = false := by decide

/-! ## Witnesses: a state and operands that meet the hypotheses of each statement, clause by clause -/

theorem forall_bank {P : BankId → Prop} (h0 : P .b0) (h1 : P .b1) (h2 : P .b2) (h3 : P .b3) (b) : P b := by
  cases b <;> assumption
theorem forall_map {P : MapId → Prop} (h0 : P .m0) (h1 : P .m1) (m) : P m := by cases m <;> assumption
theorem forall_chan {P : Chan → Prop} (h0 : P .ch0) (h1 : P .ch1) (h2 : P .ch2) (c) : P c := by
  cases c <;> assumption

/-- A state with work in every block: CH0 in RUN from B1 to M0, CH1 waiting for B1's commit, CH2 for
the build of M1 from B2, a request for M0, a claimed ROUTINE record and a full prefetch. -/
def busy : State :=
  { State.reset with
    banks := { b0 := Bank.reset, b1 := { entries := workedEntries, generation := 12, holders := 1 }
               b2 := { Bank.reset with holders := 1 }, b3 := Bank.reset }
    uq := { records := [updateRecord .b1 .sealed true, updateRecord .b2 .opened false]
            commit := UpdateQueue.reset.commit.set .b1 .pending }
    port := { target := .bank .b1, index := 255, items := [0, 0xFF000000], filling := false
              stretched := false }
    maps := { m0 := { readyMap with holders := 1 }
              m1 := { ReductionMap.reset with
                      state := .building, params := { MapParams.reset with source := .b2 }
                      cells := List.replicate 2 { best := 0, second := none, weight := 0 } } }
    engine := { BuildEngine.reset with state := .building, current := .m1, progress := 2
                                       requests := [request .m0 .b1] }
    channels :=
      { ch0 := { channelIn { i8Context with dst := .i8 } .run with
                 path := { next := 1, inWord := some 0x100, held := none, outWord := some 0, done := 1 } }
        ch1 := channelIn i8Context (.wait .bankCommit)
        ch2 := channelIn { Context.reset with dst := .i8, map := .m1 } (.wait .mapBusy) }
    scanout := { state := .on, current := .b0, next := .b0, frame := 3 }
    eq := { routines 1 with claim := some .routine }
    pending := [.pixelStep .ch0] }

theorem busy_engineAgrees : EngineAgrees busy := forall_map (by decide) (by decide)
theorem busy_collections : CollectionsOk busy := by
  refine ⟨⟨by decide, by decide, ?_, by decide⟩,
    ⟨by decide, by decide, ?_, by decide, by decide, by decide⟩, ?_, ?_, by decide, by decide⟩
  · simp only [RecordOk]; decide
  · intro c h; cases h; decide
  · refine forall_chan ?_ ?_ ?_ <;> (simp only [ChannelOk]; decide)
  · exact forall_bank (by decide) (by decide) (by decide) (by decide)
theorem busy_holds : HoldsAgree busy :=
  ⟨busy_engineAgrees, forall_bank (by decide) (by decide) (by decide) (by decide),
    forall_map (by decide) (by decide), forall_map (by decide) (by decide)⟩
theorem busy_commits : CommitsAgree busy :=
  forall_bank (by decide) (by decide) (by decide) (by decide)
theorem busy_prefetch : PrefetchOk busy := ⟨by decide, by decide, by decide, by decide, by decide⟩
theorem busy_maps : MapsOk busy := by
  refine ⟨busy_engineAgrees, forall_map ⟨by decide, ?_, rfl⟩ ⟨by decide, ?_, rfl, by decide⟩,
    by decide, by decide⟩
  all_goals
    intro c hc
    obtain rfl := List.eq_of_mem_replicate hc
    refine ⟨by decide, by decide, by decide, ?_⟩
    intro t ht
    cases ht <;> decide
theorem busy_paths : PathsOk busy :=
  forall_chan (fun _ => ⟨job, [], by decide, by decide, rfl, by decide, by decide, by decide, by decide⟩)
    (fun _ => ⟨job, [], by decide, by decide, rfl, by decide, by decide, by decide, by decide⟩)
    (fun _ => ⟨job, [], by decide, by decide, rfl, by decide, by decide, by decide, by decide⟩)
theorem busy_waits : WaitsOk busy :=
  forall_chan ⟨by decide, by decide⟩ ⟨by decide, by decide⟩ ⟨by decide, by decide⟩

theorem witness_StepRunsTheFrontCommand :
    { State.reset with pending := [Instr.tick, .frameStart] }.pending = .tick :: [.frameStart] := rfl
/-- CH0 of `running` is blocked with limit 1 at stall timer 0, and with limit 2 one tick short. -/
theorem witness_TicksDriveTheTimers :
    (State.reset.pending = [] ∧ State.reset.timebase.count + 1 < State.reset.timebase.div.toNat) ∧
    (50000 ≤ 49999 + 1 ∧ ({ State.reset with timebase := { div := 50000, count := 49999 } }).pending = []) ∧
    (running.blocked .ch0 = true ∧ (running.chan .ch0).ctx.stallLimit = 1 ∧
      (running.chan .ch0).stall = 0) ∧
    (running.blocked .ch1 = false ∧ running.blocked .ch2 = false) ∧
    ((running.setChan .ch0 (channelIn { i8Context with stallLimit := 2 } .run)).blocked .ch0 = true) ∧
    ((routines 1).routine ≠ [] ∧ ({ routines 1 with timeout := 1 }).timeout.toNat ≤ 0 + 1) := by decide
theorem witness_EventsOutsideTheirConditionsChangeNothing :
    (running.blocked .ch1 = false ∧ State.reset.eq.routine = [] ∧ State.reset.port.filling = false) ∧
    (busy.engine.state ≠ .idle ∧ State.reset.engine.state ≠ .building ∧
      State.reset.engine.requests = []) ∧
    ((State.reset.chan .ch0).state ≠ .wait .start ∧ running.pixelReady .ch0 = none) ∧
    (running.engine.state = .idle ∧ running.engine.abortSlot = none ∧
      (running.chan .ch0).state = .run ∧ (routines 24).hasRoom .routine = false) ∧
    (accessReg 32 0 ≠ none ∧ Reg.readable .eqHead0 = true ∧ Reg.writable .eqPop = true) := by decide
theorem witness_FullResetGivesEveryResetValue :
    (after .apDataRead State.reset).port.stretched = true := by decide
theorem witness_SoftResetEndsWorkAndKeepsThePalette : busy.port.stretched = false := rfl
theorem witness_EngCtrlWriteSetsTheEnablesAndArmsScanout :
    State.reset.port.stretched = false ∧ State.reset.scanout.state = .off ∧
      busy.port.stretched = false ∧ busy.scanout.state = .on := by decide
/-- The former display bank B1 with nothing sealed, with a set without notify, and with notify at 23
and at 24 ROUTINE records. -/
theorem witness_ScanoutDisableJudgesTheFormerDisplayBank :
    (State.reset.scanout.state ≠ .on) ∧
    ((showing .b1 .b1).scanout.state = .on ∧ (showing .b1 .b1).commitOf .b1 ≠ .pending) ∧
    ((withSealed .b1 false (showing .b1 .b1)).commitOf .b1 = .pending ∧
      ((withSealed .b1 false (showing .b1 .b1)).bank .b1).holders = 0 ∧
      (withSealed .b1 false (showing .b1 .b1)).uq.asksNotice .b1 = false) ∧
    ((withSealed .b1 true (showing .b1 .b1)).uq.asksNotice .b1 = true ∧
      (routines 23).hasRoom .routine = true ∧ (routines 24).hasRoom .routine = false) := by decide
theorem witness_IrqFollowsItsFourConditions :
    EventsOk busy ∧ (∃ t, exec .fullReset busy = .next t) ∧ (∃ t, exec .eqHead0 busy = .next t) ∧
      ∃ t, exec .eqHead1 busy = .next t :=
  ⟨busy_collections.2.1, ⟨_, rfl⟩, ⟨_, rfl⟩, ⟨_, rfl⟩⟩
/-- A set flag over the front command of `busy`, over an ENG_CTRL write without the soft reset, and over
a clock cycle. -/
theorem witness_HostFaultFlagsAreSticky :
    State.reset.port.stretched = false ∧ (State.reset.flag .cmdIgnored).flagged .cmdIgnored = true ∧
    ((busy.flag .cmdIgnored).pending = .pixelStep .ch0 :: [] ∧
      clearsHostFaults (.pixelStep .ch0) = false ∧
      clearsHostFaults (.scanoutDisable false busy.enables) = false) ∧
    (State.reset.flag .cmdIgnored).pending = [] ∧ (∃ t, step (busy.flag .cmdIgnored) = .next t) ∧
    ∃ t, step (State.reset.flag .cmdIgnored) = .next t :=
  ⟨by decide, by decide, by decide, by decide, ⟨_, rfl⟩, ⟨_, rfl⟩⟩
/-- The last byte offset of the window, an unaligned one and a narrow access; each of the two types;
a command of the host while a read is stretched. -/
theorem witness_AccessesThatReachNoBlock :
    accessReg 32 1020 = none ∧ accessReg 32 0x001 = none ∧ accessReg 8 0x000 = none ∧
    Reg.writable .engStatus = false ∧ Reg.readable .eqPop = false ∧
    (accessOf .eqHead0 = some (readOf .eqHead0) ∧ (after .apDataRead State.reset).port.stretched = true) := by
  decide
theorem witness_PlainRegisterWritesReplaceTheHeldValue :
    State.reset.port.stretched = false ∧ (0x00010000 : Word).toNat % 2 ^ 16 = 0 ∧
      (1 : Word).toNat % 2 ^ 16 ≠ 0 := by decide
theorem witness_WindowDecodesEveryAccess :
    accessReg 32 0x1B4 = some (.chOut .ch2) ∧
    decodeAccess { write := false, width := 32, offset := 1023, value := 0 } =
      some (.invalidAccess false 32 1023) ∧
    decodeAccess (readOf (.bankStatus .b3)) = none := by decide
theorem witness_AccessDecodingGivesTheCommandBack :
    (Instr.chCmdIgnored .ch2 0).wf = true ∧
      accessOf (.chCmdIgnored .ch2 0) = some (writeOf (.chCmd .ch2) 0) := by decide
/-- An OFF unit, an ARMED one, and units that are ON with a sealed, unheld incoming bank without notify,
with a bank that neither loses nor gains the role, and with a held incoming bank. -/
theorem witness_FrameStartSettlesTheDisplayRole :
    (State.reset.scanout.state = .off) ∧
    (after (.scanoutEnable false State.reset.enables) State.reset).scanout.state = .armed ∧
    ((showing .b1 .b1).scanout.state = .on ∧ (showing .b1 .b1).scanout.next = .b1) ∧
    ((showing .b1 .b2).scanout.next ≠ (showing .b1 .b2).scanout.current) ∧
    (∃ t, exec .frameStart (withSealed .b2 false (showing .b1 .b2)) = .next t) ∧
    CommitsAgree (withSealed .b2 false (showing .b1 .b2)) ∧
    (withSealed .b2 false (showing .b1 .b2)).commitOf .b2 ≠ .none ∧
    ((withSealed .b2 false (showing .b1 .b2)).bank .b2).holders = 0 ∧
    (withSealed .b2 false (showing .b1 .b2)).uq.asksNotice .b2 = false ∧
    (busy.scanout.state = .on ∧ (BankId.b3 ≠ busy.scanout.next ∧ BankId.b3 ≠ busy.scanout.current)) ∧
    (({ busy with scanout := { busy.scanout with next := .b1 } }).bank .b1).holders ≠ 0 :=
  ⟨by decide, by decide, by decide, by decide, ⟨_, rfl⟩,
    forall_bank (by decide) (by decide) (by decide) (by decide), by decide,
    by decide, by decide, by decide, by decide⟩

/-- A switch from B1 to B2 whose two commits ask for notice, with 23 ROUTINE records. -/
def switching : State :=
  withEvents (routines 23) (withSealed .b2 true (withSealed .b1 true (showing .b1 .b2)))
theorem witness_OutgoingBankCommitsBeforeTheIncoming :
    CommitsAgree switching ∧ switching.scanout.state = .on ∧
    switching.scanout.next ≠ switching.scanout.current ∧ switching.commitOf .b1 = .pending ∧
    (switching.bank .b1).holders = 0 ∧ switching.uq.asksNotice .b1 = true ∧
    switching.commitOf .b2 ≠ .none ∧ (switching.bank .b2).holders = 0 ∧
    switching.uq.asksNotice .b2 = true ∧ switching.eq.hasRoom .routine = true ∧
    switching.eq.routine.length = 23 :=
  ⟨forall_bank (by decide) (by decide) (by decide) (by decide), by decide, by decide, by decide,
    by decide, by decide, by decide, by decide, by decide, by decide, by decide⟩
theorem witness_LookupsAndTheNextDisplayBank :
    (showing .b1 .b1).scanout.state = .on ∧ State.reset.port.stretched = false := by decide
theorem witness_DisplayBankIsStableBetweenFrameStarts :
    CommitsAgree busy ∧ Instr.tick ≠ .frameStart ∧ Instr.tick ≠ .fullReset ∧
      busy.scanout.state = .on ∧ ∃ t, exec .tick busy = .next t ∧ t.scanout.state = .on :=
  ⟨busy_commits, by decide, by decide, by decide, _, rfl, by decide⟩
theorem witness_CommitEventAppliesThePendingSet :
    Palette.wf (busy.bank .b1).entries = true ∧ (∀ r ∈ busy.uq.records, RecordOk r) ∧
      busy.uq.pendingSet .b1 ≠ [] :=
  ⟨by decide, busy_collections.1.2.2.1, by decide⟩
/-- No CLOSED record; one of a bank that is DEFERRED, held, displayed, and free with room or not. -/
theorem witness_SealMarksRecordsAndMayCommit :
    ((∀ r ∈ busy.uq.records, ¬(r.bank = .b1 ∧ r.state = .closed)) ∧ busy.port.stretched = false) ∧
    (∃ r ∈ (withRecord .b1 .closed State.reset).uq.records, r.bank = .b1 ∧ r.state = .closed) ∧
    ((withRecord .b1 .closed busy).bank .b1).holders ≠ 0 ∧ (showing .b1 .b1).hasRole .b1 = true ∧
    ((withRecord .b1 .closed State.reset).commitOf .b1 ≠ .deferred ∧
      ((withRecord .b1 .closed State.reset).bank .b1).holders = 0 ∧
      (withRecord .b1 .closed State.reset).hasRole .b1 = false) ∧
    (routines 23).hasRoom .routine = true ∧ (routines 24).hasRoom .routine = false := by decide
/-- A held bank with a pending commit (the last hold, and one of two), and one without. -/
theorem witness_LastReleaseReachesTheCommitPoint :
    (running.commitOf .b1 ≠ .pending) ∧
    ((withSealed .b1 true running).commitOf .b1 = .pending ∧
      ((withSealed .b1 true running).bank .b1).holders = 1 ∧
      (withSealed .b1 true running).hasRole .b1 = false ∧
      (withSealed .b1 true running).uq.asksNotice .b1 = true ∧
      (withSealed .b1 false running).uq.asksNotice .b1 = false) := by decide
/-- Counts 0, 8 and 9, a run that ends at 256 and one that ends at 255, and an OPEN record. -/
theorem witness_StagingOpensAndFillsRecords :
    State.reset.port.stretched = false ∧ (∀ r ∈ State.reset.uq.records, r.state ≠ .opened) ∧
    (0x000 : Word).toNat / 256 % 16 = 0 ∧ 8 < (0x900 : Word).toNat / 256 % 16 ∧
    255 < (0x8F9 : Word).toNat % 256 + (0x8F9 : Word).toNat / 256 % 16 - 1 ∧
    ¬(255 < (0x8F8 : Word).toNat % 256 + (0x8F8 : Word).toNat / 256 % 16 - 1) ∧
    (busy.uq.records = [updateRecord .b1 .sealed true] ++ updateRecord .b2 .opened false :: [] ∧
      (updateRecord .b2 .opened false).state = .opened ∧
      ∀ q ∈ [updateRecord .b1 .sealed true] ++ [], q.state ≠ .opened) := by decide
theorem witness_DiscardAndUnknownCommands :
    State.reset.port.stretched = false ∧ (1 : Word).toNat % 4 = 1 ∧ (2 : Word).toNat % 4 = 2 ∧
      (3 : Word).toNat % 4 = 3 ∧ (0 : Word).toNat % 4 = 0 := by decide
theorem witness_GenerationCountsEveryChangeOfABank :
    Instr.apDataWrite 1 ≠ .fullReset ∧ ∃ t, exec (.apDataWrite 1) State.reset = .next t :=
  ⟨by decide, _, rfl⟩
theorem witness_AcceptedDirectWriteChangesOneEntry :
    State.reset.port.stretched = false ∧ State.reset.port.target = .bank .b0 ∧
    (State.reset.bank .b0).holders = 0 ∧ State.reset.hasRole .b0 = false ∧
    State.reset.sealedPending .b0 = false ∧ Palette.wf (State.reset.bank .b0).entries = true := by decide
/-- Targets 5 and 6; index 255 and 256 of a bank; index 511 of a map; the port on a map, and on a bank
that is held, displayed or sealed. -/
theorem witness_PortJudgesAddressesAndWrites :
    6 ≤ (0x60000 : Word).toNat / 65536 % 8 ∧
    ((0x30100 : Word).toNat / 65536 % 8 < 4 ∧ 255 < (0x30100 : Word).toNat % 512) ∧
    ¬(6 ≤ (0x300FF : Word).toNat / 65536 % 8 ∨
      (0x300FF : Word).toNat / 65536 % 8 < 4 ∧ 255 < (0x300FF : Word).toNat % 512) ∧
    ¬(6 ≤ (0x501FF : Word).toNat / 65536 % 8 ∨
      (0x501FF : Word).toNat / 65536 % 8 < 4 ∧ 255 < (0x501FF : Word).toNat % 512) ∧
    State.reset.port.index < 512 ∧
    (after (.apAddr 0x501FF) State.reset).port.target = .map .m1 ∧
    (busy.port.target = .bank .b1 ∧ (busy.bank .b1).holders ≠ 0 ∧ busy.sealedPending .b1 = true) ∧
    (showing .b0 .b0).hasRole .b0 = true := by decide
theorem witness_ReadsAndFetchesMoveThePrefetch :
    (busy.port.items = 0 :: [0xFF000000] ∧ busy.port.filling = false) ∧
    (State.reset.port.items = [] ∧ State.reset.port.stretched = false) ∧
    ((after .apDataRead State.reset).port.items = [] ∧
      (after .apDataRead State.reset).port.stretched = true ∧
      (after .apDataRead State.reset).port.filling = true) ∧
    ((after (.apAddr 0) State.reset).port.items = [] ∧
      (after (.apAddr 0) State.reset).port.stretched = false ∧
      (after (.apAddr 0) State.reset).port.filling = true) ∧
    ((after .fetchCompletion (after (.apAddr 0) State.reset)).port.items = [0] ∧
      (after .fetchCompletion (after (.apAddr 0) State.reset)).port.filling = true) := by decide
/-- A BUILDING map, a requested one, first above last, dimensions 1 and 9, and the reset values. -/
theorem witness_BuildRequestIsJudged :
    (busy.map .m1).state = .building ∧ (∃ q ∈ busy.engine.requests, q.map = busy.engine.regs.map) ∧
    (0 : Byte).toNat < (1 : Byte).toNat ∧ (1 : BitVec 4).toNat < 2 ∧ 8 < (9 : BitVec 4).toNat ∧
    ¬((State.reset.map .m0).state = .building ∨ (∃ q ∈ State.reset.engine.requests, q.map = .m0) ∨
      (255 : Byte).toNat < (0 : Byte).toNat ∨
      ∃ d ∈ [(2 : BitVec 4), 2, 2], d.toNat < 2 ∨ 8 < d.toNat) := by decide

/-- Two requests, of which the older cannot start because its bank B1 has sealed records. -/
def queued : State := withRequests [request .m0 .b1, request .m1 .b2] (withSealed .b1 false State.reset)
theorem witness_BuildStartTakesTheOldestStartableRequest :
    (queued.engine.state = .idle ∧ queued.engine.requests = [request .m0 .b1] ++ request .m1 .b2 :: [] ∧
      (queued.engine.requests.map fun q => q.map).Nodup ∧ (queued.map .m1).holders = 0 ∧
      queued.commitOf .b2 = .none ∧
      (∀ q ∈ [request .m0 .b1], (queued.map q.map).holders ≠ 0 ∨ queued.commitOf q.params.source ≠ .none)) ∧
    (request .m1 .b2).params.eligible (queued.bank .b2).entries ≠ [] ∧
    ({ MapParams.reset with skipTransparent := true, last := 0 }).eligible [] = [] := by decide
/-- The worked build one cell before its last. -/
theorem witness_CellCompletionWritesTheSearchResult :
    (building 6).engine.state = .building ∧ (building 6).engine.current = .m1 ∧
    (building 6).engine.progress + 1 < ((building 6).map .m1).params.cellCount ∧
    workedParams.eligible ((building 6).bank .b1).entries ≠ [] := by decide
theorem witness_LastCellCompletesTheBuild :
    (building 7).engine.state = .building ∧ (building 7).engine.current = .m1 ∧
    ((building 7).map .m1).params.source = .b1 ∧
    (building 7).engine.progress + 1 = ((building 7).map .m1).params.cellCount ∧
    workedParams.eligible ((building 7).bank .b1).entries ≠ [] := by decide
/-- A BUILDING map, a requested one with the slot empty and with it taken, and neither. -/
theorem witness_AbortStopsTheBuildOrRemovesTheRequest :
    (busy.map .m1).state = .building ∧
    ((busy.map .m0).state ≠ .building ∧ busy.buildPending .m0 = true ∧ busy.engine.abortSlot = none) ∧
    ({ busy.engine with abortSlot := some urgentRecord }).abortSlot ≠ none ∧
    (State.reset.buildPending .m0 = false ∧ (State.reset.map .m0).state ≠ .building) := by decide
theorem witness_CellsDivideTheColourSpace :
    readyMap.params.valid = true ∧ 7 < readyMap.params.cellCount ∧ (2 ≤ 8 ∧ 7 < 8) := by decide
theorem witness_ReductionShowsSecondByWeight :
    ((4 : Byte) ≠ 0 ∧ readyMap.params.transparent = some 4) ∧
    (white.a ≠ 0 ∧ readyMap.cells[readyMap.params.cellOf white]? =
      some { best := 0, second := some 1, weight := 3 }) ∧
    ((1 : Byte) ≠ 0 ∧ (16 : Nat) ≤ 16) := by decide
/-- A current job; format codes 5 and 4; an IDLE and a HALTED channel. -/
theorem witness_ContextWriteIsJudged :
    ((busy.chan .ch0).state ≠ .idle ∧ (busy.chan .ch0).state ≠ .halted) ∧
    (4 < (0x05 : Word).toNat % 8 ∧ ¬4 < (0x44 : Word).toNat % 8 ∧ ¬4 < (0x44 : Word).toNat / 16 % 8) ∧
    (State.reset.chan .ch0).state = .idle ∧ State.reset.port.stretched = false := by decide
/-- Count 0 and 1, width 0, 4096 and 4097, a queue of 7 and of 8. -/
theorem witness_JobPushIsJudged :
    ({ job with count := 0 }).count = 0 ∧ 4096 < ({ job with width := 4097 }).width ∧
    8 ≤ (List.replicate 8 job).length ∧
    ¬(1 = 0 ∨ 4096 = 0 ∨ 4096 < 4096 ∨ 8 ≤ (List.replicate 7 job).length) ∧
    (busy.chan .ch0).state ≠ .idle ∧
    ((State.reset.chan .ch0).state = .idle ∧ (State.reset.chan .ch0).jobs = []) := by decide

/-- CH0 is due for an attempt under a context. -/
def due (x : Context) (s : State) : State := s.setChan .ch0 (channelIn x (.wait .start))
theorem witness_SegmentStartFollowsTheTable :
    ((due i8Context (withSealed .b1 false State.reset)).sealedPending .b1 = true ∧
      ((due i8Context State.reset).chan .ch0).state = .wait .start) ∧
    ((due { Context.reset with dst := .i8, map := .m1 } busy).map .m1).state = .building ∧
    ((due { Context.reset with dst := .i8 } State.reset).map .m0).state = .empty ∧
    (i8Context.src = .i8 ∧ (due i8Context State.reset).sealedPending .b1 = false ∧
      ¬(i8Context.dst = .i8)) := by decide
theorem witness_SegmentsDivideTheJob :
    (1 ≤ 1 ∧ (4096 = 0 ∨ 1 ≤ 4096)) ∧ (1 ≤ 1 ∧ 1 < 2) ∧ (0 + 1 < segmentCount 4096 4097) := by decide
/-- 15 and 16 input words; a current job, a queued one, none; 1 output word and none. -/
theorem witness_FifosTakeAndGiveWords :
    ((List.replicate 15 (0 : Word)).length < 16 ∧ (busy.chan .ch0).state.hasJob = true) ∧
    (16 ≤ (List.replicate 16 (0 : Word)).length ∧ (busy.chan .ch0).state = .run ∧
      (busy.chan .ch1).state = .wait .bankCommit) ∧
    ((State.reset.chan .ch0).inFifo.length < 16 ∧ (State.reset.chan .ch0).state.hasJob = false ∧
      (State.reset.chan .ch0).jobs = []) ∧
    (({ Channel.reset with outFifo := [7] }).outFifo = 7 :: [] ∧
      (State.reset.chan .ch0).outFifo = []) := by decide
theorem witness_FaultEndsTheJob :
    (busy.chan .ch1).state ≠ .run ∧ (busy.chan .ch0).state = .run := by decide
theorem witness_ChannelCommandsByState :
    (busy.chan .ch1).state = .wait .bankCommit ∧ (busy.chan .ch0).state = .run ∧
    (State.reset.chan .ch0).state ≠ .run ∧ (channelIn Context.reset .halted).state = .halted ∧
    (channelIn Context.reset .halted).jobs = job :: [] ∧
    ({ Channel.reset with state := .halted }).jobs = [] ∧
    (State.reset.chan .ch0).state ≠ .halted := by decide
/-- A 16-bit word; an entry at both bounds of its range, and one above. -/
theorem witness_EntriesAreExpandedKeyedAndTruncated :
    (0xFFFF : Word).toNat < 65536 ∧ ((0 : Byte) ≤ 3 ∧ (3 : Byte) ≤ 3 ∧ ¬(4 : Byte) ≤ 3) ∧
      keyContext.keyEnG = true := by decide
theorem witness_EdgeStreamMeetsTheEdgeRule : 1 ≤ 1 ∧ 1 ≤ 1 := by decide

/-- CH0 in RUN on a job of three A8888 pixels, the next being pixel 0. -/
def stepping : State :=
  State.reset.setChan .ch0
    { channelIn Context.reset .run with jobs := [{ job with count := 3 }], inFifo := [7] }

/-- CH0 in RUN under edge on with edge alpha 128, on rows of two A8888 pixels of which `n` are in the
job; the next is pixel 1, and the transparent pixel 0 is held. -/
def edging (n : Nat) : State :=
  State.reset.setChan .ch0
    { channelIn { Context.reset with edgeEn := true, edgeAlpha := 128 } .run with
      jobs := [{ job with count := n, width := 2 }], inFifo := [0xFF000001]
      path := { PixelPath.fresh with
                next := 1, held := some { number := 0, entry := Entry.zero, leftTransparent := false } } }
/-- A step inside a segment with edge off; at a row's end with a held pixel, which hands over two words;
and inside a row with none held, which hands over none. -/
theorem witness_PixelStepConvertsOnePixel :
    (stepping.chan .ch0).state = .run ∧ (stepping.chan .ch0).jobs = { job with count := 3 } :: [] ∧
    (stepping.chan .ch0).ctx.edgeEn = false ∧ (stepping.chan .ch0).path.held = none ∧
    (stepping.chan .ch0).path.inWord = none ∧ (stepping.chan .ch0).inFifo = 7 :: [] ∧
    (stepping.chan .ch0).path.next + 1 < 3 ∧ (stepping.chan .ch0).path.next ≠ segmentLast 0 3 0 ∧
    (stepping.chan .ch0).outFifo.length < 16 ∧
    (busy.chan .ch0).path.inWord = some 0x100 ∧
    (((edging 4).chan .ch0).state = .run ∧ ((edging 4).chan .ch0).path.inWord = none ∧
      ((edging 4).chan .ch0).inFifo = 0xFF000001 :: [] ∧
      ((edging 4).chan .ch0).ctx.edgeEn = true ∧ 1 % 2 = 2 - 1 ∧
      ((edging 4).pixelReady .ch0).map (fun r => r.2.out) = some [0, 0x80000001] ∧
      1 + 1 ≠ 4 ∧ 1 ≠ segmentLast 0 4 0) ∧
    (stepping.setChan .ch0 { stepping.chan .ch0 with
        ctx := { Context.reset with edgeEn := true }, jobs := [{ job with count := 3, width := 2 }]
      }).pixelReady .ch0 =
      some ({ job with count := 3, width := 2 },
        { path := { PixelPath.fresh with
            next := 1, held := some { number := 0, entry := Entry.ofWord 7, leftTransparent := false } }
          inFifo := [], out := [] }) := by decide
theorem edging_path : PathOk ((edging 2).chan .ch0) :=
  fun _ => ⟨{ job with count := 2, width := 2 }, [], by decide, by decide,
    ⟨rfl, rfl, rfl, by decide⟩, by decide, by decide, by decide, by decide⟩
/-- The last pixel of a job; the last of a segment of length 1 with notices on and off; the last of a job
whose step pads its word, and one whose step hands over two. -/
theorem witness_PixelStepEndsSegmentsAndJobs :
    ((busy.pixelReady .ch0).isSome = true ∧ (busy.chan .ch0).path.next + 1 = job.count) ∧
    ((stepping.setChan .ch0 { channelIn { Context.reset with segLen := 1 } .run with
        inFifo := [7] }).pixelReady .ch0).isSome = true ∧
    (0 + 1 ≠ job.count ∧ 0 = segmentLast 1 job.count 0 ∧ job.segNotify = true ∧
      ({ job with segNotify := false }).segNotify = false) ∧
    PathOk (busy.chan .ch0) ∧ PathOk ((edging 2).chan .ch0) ∧
    ((edging 2).pixelReady .ch0).map (fun r => r.2.out) = some [0, 0x80000001] :=
  ⟨by decide, by decide, by decide, busy_paths .ch0, edging_path, by decide⟩
theorem witness_HeadReadsClaimThePresentedRecord :
    busy.eq.claim = some .routine ∧
    (({ routines 1 with urgent := [stamped urgentRecord] }).urgent = stamped urgentRecord :: []) ∧
    ((routines 1).claim = none ∧ (routines 1).urgent = [] ∧
      (routines 1).routine = stamped routineRecord :: []) ∧
    (State.reset.eq.claim = none ∧ State.reset.eq.urgent = [] ∧ State.reset.eq.routine = []) := by decide
theorem witness_PopsRemoveOnlyTheClaimedRecord :
    State.reset.eq.claim = none ∧
    (({ routines 0 with claim := some .urgent, urgent := [stamped urgentRecord] }).urgent =
      stamped urgentRecord :: []) ∧
    (busy.eq.claim = some .routine ∧ busy.eq.routine = stamped routineRecord :: []) := by decide
theorem witness_ThresholdWriteIsJudged :
    ((32 : Word).toNat % 32 = 0 ∧ 24 < (25 : Word).toNat % 32) ∧
    ¬((24 : Word).toNat % 32 = 0 ∨ 24 < (24 : Word).toNat % 32) ∧
    (∃ t, exec .fullReset busy = .next t) ∧
    (∃ t, exec (.softReset true { urg := false, rtn := false, flt := false }) busy = .next t) ∧
    (∃ t, exec (.chCmdReset .ch0) busy = .next t) :=
  ⟨by decide, by decide, ⟨_, rfl⟩, ⟨_, rfl⟩, ⟨_, rfl⟩⟩

/-- CH1 in POST with each of the kinds of record, CH0 served last, the engine IDLE. -/
def posting (r : EventRecord) : State :=
  let s := State.reset.setChan .ch1 (channelIn Context.reset (.post r))
  { s with eq := { s.eq with lastServed := .ch0 } }
theorem witness_InsertionServesTheFirstFittingPoster :
    ({ BuildEngine.reset with state := .post urgentRecord }).state = .post urgentRecord ∧
    ({ BuildEngine.reset with abortSlot := some urgentRecord }).abortSlot = some urgentRecord ∧
    ((posting urgentRecord).engine.state = .idle ∧ (posting urgentRecord).engine.abortSlot = none ∧
      rotation (posting urgentRecord).eq.lastServed = [] ++ .ch1 :: [.ch2, .ch0] ∧
      ((posting urgentRecord).chan .ch1).state = .post urgentRecord ∧
      (posting urgentRecord).eq.hasRoom .urgent = true) ∧
    ((({ posting urgentRecord with uq := busy.uq }).setCommit .b1 .deferred).commitOf .b1 = .deferred ∧
      [BankId.b0, .b1, .b2, .b3] = [.b0] ++ .b1 :: [.b2, .b3]) ∧
    (routines 24).hasRoom .urgent = true ∧ (routines 24).hasRoom .routine = false ∧
    (routines 32).hasRoom .urgent = false := by decide
theorem witness_ClaimLastsUntilItsRecordIsRemoved :
    endsClaim .insertionEvent = false ∧ (∃ t, exec .insertionEvent busy = .next t) ∧
      busy.eq.claimed = some (stamped routineRecord) := ⟨by decide, ⟨_, rfl⟩, by decide⟩
theorem witness_ShapeCodeDecodes :
    readyMap.params.valid = true ∧ readyMap.holders ≤ 3 ∧
    ({ readyMap.params with nr := 8, ng := 8, nb := 8 }).valid = true ∧
    (∃ t, exec .fullReset busy = .next t) := ⟨by decide, by decide, by decide, ⟨_, rfl⟩⟩
theorem witness_StatusWordsShowTheState :
    CollectionsOk busy ∧ (busy.bank .b1).holders ≤ 4 ∧ busy.port.items.length ≤ 3 ∧
      busy.engine.requests.length ≤ 3 ∧ busy.engine.progress < 1024 ∧
      (updateRecord .b2 .opened false).state = .opened ∧
      ((busy.map .m0).params.valid = true ∧ (busy.map .m0).holders ≤ 3) :=
  ⟨busy_collections, by decide, by decide, by decide, by decide, by decide, by decide⟩
theorem witness_EveryStepKeepsTheCapacities : CollectionsOk busy ∧ ∃ t, step busy = .next t :=
  ⟨busy_collections, _, rfl⟩
theorem witness_EveryStepKeepsTheHolderCounts : HoldsAgree busy ∧ ∃ t, step busy = .next t :=
  ⟨busy_holds, _, rfl⟩
theorem witness_EveryStepKeepsTheCommitStates : CommitsAgree busy ∧ ∃ t, step busy = .next t :=
  ⟨busy_commits, _, rfl⟩
theorem witness_EveryStepKeepsThePrefetchCurrent : PrefetchOk busy ∧ ∃ t, step busy = .next t :=
  ⟨busy_prefetch, _, rfl⟩
theorem witness_EveryStepKeepsTheMapsComplete : MapsOk busy ∧ ∃ t, step busy = .next t :=
  ⟨busy_maps, _, rfl⟩
theorem witness_EveryStepKeepsThePixelPathInStep :
    CollectionsOk busy ∧ PathsOk busy ∧ ∃ t, step busy = .next t :=
  ⟨busy_collections, busy_paths, _, rfl⟩
theorem witness_NothingWaitsForWhatHasHappened :
    WaitsOk busy ∧ NoBuildMissed (withRequests [request .m0 .b1] (withSealed .b1 false State.reset)) ∧
      ∃ t, step busy = .next t :=
  ⟨busy_waits, fun _ => by decide, ⟨_, rfl⟩⟩
/-- CH0 of `busy` stays in RUN, on B1 and M0, over a tick. -/
theorem witness_SegmentReadsOneVersionOfItsTables :
    HoldsAgree busy ∧ CommitsAgree busy ∧ (busy.chan .ch0).state = .run ∧
      (∃ t, exec .tick busy = .next t ∧ (t.chan .ch0).state = .run) ∧
      (busy.chan .ch0).ctx.src = .i8 ∧ (busy.chan .ch0).ctx.dst = .i8 :=
  ⟨busy_holds, busy_commits, by decide, ⟨_, rfl, by decide⟩, by decide, by decide⟩

end Sys2Proof.Tests
end

section
/-! PROOFS. Chapter 1 and the key step: expansion and truncation as numbers (Tables 1-4 to 1-6), the
fields of a word taken out and put back (R11), the output lanes (R12) and the colour key (R142). -/

namespace Sys2Proof.Proofs

open Sys2Proof Sys2Proof.Machine

/-! ## Expansion and truncation as numbers (Tables 1-4 and 1-5) -/

@[simp] theorem expand5_toNat (v : BitVec 5) : (expand5 v).toNat = 8 * v.toNat + v.toNat / 4 := by
  rw [expand5, BitVec.toNat_ofNat, Nat.mod_eq_of_lt (by omega)]

@[simp] theorem expand6_toNat (v : BitVec 6) : (expand6 v).toNat = 4 * v.toNat + v.toNat / 16 := by
  rw [expand6, BitVec.toNat_ofNat, Nat.mod_eq_of_lt (by omega)]

@[simp] theorem expand4_toNat (v : BitVec 4) : (expand4 v).toNat = 17 * v.toNat := by
  rw [expand4, BitVec.toNat_ofNat, Nat.mod_eq_of_lt (by omega)]

@[simp] theorem expand1_toNat (v : Bool) : (expand1 v).toNat = if v then 255 else 0 := by
  cases v <;> rfl

@[simp] theorem trunc5_toNat (c : Byte) : (trunc5 c).toNat = c.toNat / 8 := by
  rw [trunc5, BitVec.toNat_ofNat, Nat.mod_eq_of_lt (by omega)]

@[simp] theorem trunc6_toNat (c : Byte) : (trunc6 c).toNat = c.toNat / 4 := by
  rw [trunc6, BitVec.toNat_ofNat, Nat.mod_eq_of_lt (by omega)]

@[simp] theorem trunc4_toNat (c : Byte) : (trunc4 c).toNat = c.toNat / 16 := by
  rw [trunc4, BitVec.toNat_ofNat, Nat.mod_eq_of_lt (by omega)]

theorem trunc1_eq_true_iff (c : Byte) : trunc1 c = true ↔ 128 ≤ c.toNat := by
  rw [trunc1, decide_eq_true_iff]

/-! ## Expansion then truncation (Table 1-6, R11) -/

@[simp] theorem trunc5_expand5 (v : BitVec 5) : trunc5 (expand5 v) = v := by
  apply BitVec.eq_of_toNat_eq
  rw [trunc5_toNat, expand5_toNat]
  omega

@[simp] theorem trunc6_expand6 (v : BitVec 6) : trunc6 (expand6 v) = v := by
  apply BitVec.eq_of_toNat_eq
  rw [trunc6_toNat, expand6_toNat]
  omega

@[simp] theorem trunc4_expand4 (v : BitVec 4) : trunc4 (expand4 v) = v := by
  apply BitVec.eq_of_toNat_eq
  rw [trunc4_toNat, expand4_toNat]
  omega

@[simp] theorem trunc1_expand1 (v : Bool) : trunc1 (expand1 v) = v := by cases v <;> rfl

theorem trunc1_expand4 (v : BitVec 4) : trunc1 (expand4 v) = decide (8 ≤ v.toNat) := by
  have hiff : 128 ≤ 17 * v.toNat ↔ 8 ≤ v.toNat := by omega
  simp only [trunc1, expand4_toNat, hiff]

/-- A 4-bit field carried to the three truncated widths of Table 1-6. -/
theorem trunc_expand4 (v : BitVec 4) :
    trunc1 (expand4 v) = decide (8 ≤ v.toNat) ∧ trunc4 (expand4 v) = v ∧
      (trunc5 (expand4 v)).toNat = 2 * v.toNat + v.toNat / 8 ∧
      (trunc6 (expand4 v)).toNat = 4 * v.toNat + v.toNat / 4 := by
  refine ⟨trunc1_expand4 v, trunc4_expand4 v, ?_, ?_⟩
  · rw [trunc5_toNat, expand4_toNat]
    omega
  · rw [trunc6_toNat, expand4_toNat]
    omega

/-- A 5-bit field carried to the three truncated widths of Table 1-6. -/
theorem trunc_expand5 (v : BitVec 5) :
    (trunc4 (expand5 v)).toNat = v.toNat / 2 ∧ trunc5 (expand5 v) = v ∧
      (trunc6 (expand5 v)).toNat = 2 * v.toNat + v.toNat / 16 := by
  refine ⟨?_, trunc5_expand5 v, ?_⟩
  · rw [trunc4_toNat, expand5_toNat]
    omega
  · rw [trunc6_toNat, expand5_toNat]
    omega

/-- A 6-bit field carried to the three truncated widths of Table 1-6. -/
theorem trunc_expand6 (v : BitVec 6) :
    (trunc4 (expand6 v)).toNat = v.toNat / 4 ∧ (trunc5 (expand6 v)).toNat = v.toNat / 2 ∧
      trunc6 (expand6 v) = v := by
  refine ⟨?_, ?_, trunc6_expand6 v⟩
  · rw [trunc4_toNat, expand6_toNat]
    omega
  · rw [trunc5_toNat, expand6_toNat]
    omega

/-- A 1-bit field carried to the two truncated widths of Table 1-6. -/
theorem trunc_expand1 (v : Bool) :
    trunc1 (expand1 v) = v ∧ (trunc4 (expand1 v)).toNat = if v then 15 else 0 :=
  ⟨trunc1_expand1 v, by cases v <;> rfl⟩

/-! ## The entry of a pixel, from the numbers of its fields (R8, R9) -/

theorem expandPixel_eq_fields (v : Word) (bank : List (Nat × Entry)) :
    expandPixel .r565 bank v =
      { a := 255, r := expand5 (BitVec.ofNat 5 (v.toNat / 2 ^ 11)),
        g := expand6 (BitVec.ofNat 6 (v.toNat / 2 ^ 5)), b := expand5 (BitVec.ofNat 5 v.toNat) } ∧
    expandPixel .a1555 bank v =
      { a := expand1 (decide (v.toNat / 2 ^ 15 % 2 = 1)),
        r := expand5 (BitVec.ofNat 5 (v.toNat / 2 ^ 10)),
        g := expand5 (BitVec.ofNat 5 (v.toNat / 2 ^ 5)), b := expand5 (BitVec.ofNat 5 v.toNat) } ∧
    expandPixel .a4444 bank v =
      { a := expand4 (BitVec.ofNat 4 (v.toNat / 2 ^ 12)),
        r := expand4 (BitVec.ofNat 4 (v.toNat / 2 ^ 8)),
        g := expand4 (BitVec.ofNat 4 (v.toNat / 2 ^ 4)), b := expand4 (BitVec.ofNat 4 v.toNat) } ∧
    expandPixel .a8888 bank v =
      { a := BitVec.ofNat 8 (v.toNat / 2 ^ 24), r := BitVec.ofNat 8 (v.toNat / 2 ^ 16),
        g := BitVec.ofNat 8 (v.toNat / 2 ^ 8), b := BitVec.ofNat 8 v.toNat } ∧
    expandPixel .i8 bank v = Palette.read bank (v.toNat % 2 ^ 8) := by
  have hlow (w : Nat) : fieldAt v 0 w = BitVec.ofNat w v.toNat := by
    rw [fieldAt_eq_ofNat, Nat.pow_zero, Nat.div_one]
  refine ⟨?r565, ?a1555, ?a4444, ?a8888, ?i8⟩
  case r565 => rw [expandPixel, hlow, fieldAt_eq_ofNat, fieldAt_eq_ofNat]
  case a1555 => rw [expandPixel, hlow, fieldAt_eq_ofNat, fieldAt_eq_ofNat, bitAt_eq_decide]
  case a4444 => rw [expandPixel, hlow, fieldAt_eq_ofNat, fieldAt_eq_ofNat, fieldAt_eq_ofNat]
  case a8888 => rw [expandPixel, Entry.ofWord, hlow, fieldAt_eq_ofNat, fieldAt_eq_ofNat,
    fieldAt_eq_ofNat]
  case i8 => rw [expandPixel, hlow, BitVec.toNat_ofNat]

/-! ## A word taken apart and put together again (R11) -/

/-- A field put back at its own place keeps the word's bits inside it and clears the others. -/
theorem getElem_putAt_fieldAt (v : Word) (lo w i : Nat) (hi : i < 32) :
    (putAt (fieldAt v lo w) lo)[i] = (decide (lo ≤ i ∧ i < lo + w) && v[i]) := by
  by_cases hlo : lo ≤ i
  · have hwidth : i - lo < w ↔ i < lo + w := by omega
    simp [putAt, fieldAt, hlo, hwidth, BitVec.getLsbD_eq_getElem hi]
  · simp [putAt, hlo]

/-- Two neighbouring fields, each put back at its place, are the one field that spans both. -/
theorem putAt_fieldAt_join (v : Word) (lo m n : Nat) :
    putAt (fieldAt v (lo + m) n) (lo + m) ||| putAt (fieldAt v lo m) lo =
      putAt (fieldAt v lo (m + n)) lo := by
  ext i hi
  have hspan : (lo + m ≤ i ∧ i < lo + m + n) ∨ (lo ≤ i ∧ i < lo + m) ↔
      lo ≤ i ∧ i < lo + (m + n) := by omega
  rw [BitVec.getElem_or, getElem_putAt_fieldAt, getElem_putAt_fieldAt, getElem_putAt_fieldAt,
    ← Bool.and_or_distrib_right, ← Bool.decide_or, decide_eq_decide.mpr hspan]

/-- A word below 2 ^ w is its field of w bits at the bottom. -/
theorem putAt_fieldAt_low (v : Word) (w : Nat) (h : v.toNat < 2 ^ w) :
    putAt (fieldAt v 0 w) 0 = v := by
  apply BitVec.eq_of_toNat_eq
  rw [putAt, BitVec.shiftLeft_zero, BitVec.toNat_setWidth, fieldAt_eq_ofNat, BitVec.toNat_ofNat,
    Nat.pow_zero, Nat.div_one, Nat.mod_eq_of_lt h, Nat.mod_eq_of_lt v.isLt]

/-- A flag put back at its own place is a field of one bit there. -/
theorem putBit_bitAt (v : Word) (i : Nat) : putBit (bitAt v i) i = putAt (fieldAt v i 1) i := by
  have hbit : BitVec.ofBool (bitAt v i) = fieldAt v i 1 := by
    ext j hj
    obtain rfl : j = 0 := by omega
    simp [bitAt, fieldAt]
  rw [putBit, hbit]

theorem packR565_expandPixel (v : Word) (bank : List (Nat × Entry)) (h : v.toNat < 2 ^ 16) :
    packR565 (expandPixel .r565 bank v) = v := by
  simp only [packR565, expandPixel, trunc5_expand5, trunc6_expand6]
  rw [putAt_fieldAt_join v 5 6 5, putAt_fieldAt_join v 0 5 11, putAt_fieldAt_low v 16 h]

theorem packA1555_expandPixel (v : Word) (bank : List (Nat × Entry)) (h : v.toNat < 2 ^ 16) :
    packA1555 (expandPixel .a1555 bank v) = v := by
  simp only [packA1555, expandPixel, trunc1_expand1, trunc5_expand5, putBit_bitAt]
  rw [putAt_fieldAt_join v 10 5 1, putAt_fieldAt_join v 5 5 6, putAt_fieldAt_join v 0 5 11,
    putAt_fieldAt_low v 16 h]

theorem packA4444_expandPixel (v : Word) (bank : List (Nat × Entry)) (h : v.toNat < 2 ^ 16) :
    packA4444 (expandPixel .a4444 bank v) = v := by
  simp only [packA4444, expandPixel, trunc4_expand4]
  rw [putAt_fieldAt_join v 8 4 4, putAt_fieldAt_join v 4 4 8, putAt_fieldAt_join v 0 4 12,
    putAt_fieldAt_low v 16 h]

/-- The lane selectors after reset arrange an entry as the entry word does (R2, R12). -/
theorem arrange_reset (e : Entry) : arrange Context.reset.lanes e = e.toWord := rfl

theorem toWord_ofWord (v : Word) : (Entry.ofWord v).toWord = v := by
  simp only [Entry.toWord, Entry.ofWord]
  rw [putAt_fieldAt_join v 16 8 8, putAt_fieldAt_join v 8 8 16, putAt_fieldAt_join v 0 8 24,
    putAt_fieldAt_low v 32 v.isLt]

/-! ## The output lanes (R12) -/

/-- An A8888 output word is the sum of its selected components, each at its byte lane. -/
theorem arrange_toNat (l : LaneSelectors) (e : Entry) :
    (arrange l e).toNat =
      (e.component l.lane0).toNat + 2 ^ 8 * (e.component l.lane1).toNat +
        2 ^ 16 * (e.component l.lane2).toNat + 2 ^ 24 * (e.component l.lane3).toNat := by
  have h0 : (putAt (e.component l.lane0) 0).toNat = (e.component l.lane0).toNat := by
    rw [putAt_toNat _ 0 (by omega), Nat.pow_zero, Nat.one_mul]
  have h1 : (putAt (e.component l.lane1) 8 ||| putAt (e.component l.lane0) 0).toNat =
      2 ^ 8 * (e.component l.lane1).toNat + (e.component l.lane0).toNat := by
    rw [putAt_or_toNat _ 8 _ (by omega) (by omega), h0]
  have h2 : (putAt (e.component l.lane2) 16 |||
        (putAt (e.component l.lane1) 8 ||| putAt (e.component l.lane0) 0)).toNat =
      2 ^ 16 * (e.component l.lane2).toNat + (2 ^ 8 * (e.component l.lane1).toNat +
        (e.component l.lane0).toNat) := by
    rw [putAt_or_toNat _ 16 _ (by omega) (by omega), h1]
  rw [arrange, BitVec.or_assoc, BitVec.or_assoc, putAt_or_toNat _ 24 _ (by omega) (by omega), h2]
  omega

/-! ## The key step (R142) -/

theorem inKeyRange_iff (en : Bool) (lo c hi : Byte) :
    inKeyRange en lo c hi = true ↔ (en = true → lo ≤ c ∧ c ≤ hi) := by
  cases en
  · simp [inKeyRange]
  · simp [inKeyRange, BitVec.le_def]

/-- An entry matches the key when some enable is on and every enabled component is in its range. -/
theorem keyed_iff (x : Context) (e : Entry) :
    x.keyed e = true ↔
      (x.keyEnA = true ∨ x.keyEnR = true ∨ x.keyEnG = true ∨ x.keyEnB = true) ∧
        (x.keyEnA = true → x.keyLo.a ≤ e.a ∧ e.a ≤ x.keyHi.a) ∧
        (x.keyEnR = true → x.keyLo.r ≤ e.r ∧ e.r ≤ x.keyHi.r) ∧
        (x.keyEnG = true → x.keyLo.g ≤ e.g ∧ e.g ≤ x.keyHi.g) ∧
        (x.keyEnB = true → x.keyLo.b ≤ e.b ∧ e.b ≤ x.keyHi.b) := by
  simp only [Context.keyed, Bool.and_eq_true, Bool.or_eq_true, inKeyRange_iff, and_assoc, or_assoc]

/-- Settles O41: Tables 1-4 to 1-6 field by field, then a word joined again from its fields (R11), the
output lanes as a sum (R12), and the two sides of the key condition (R142). -/
theorem entriesAreExpandedKeyedAndTruncated : Obligations.EntriesAreExpandedKeyedAndTruncated := by
  unfold Obligations.EntriesAreExpandedKeyedAndTruncated
  refine ⟨expand5_toNat, expand6_toNat, expand4_toNat, expand1_toNat, expandPixel_eq_fields,
    fun e => ⟨trunc5_toNat e, trunc6_toNat e, trunc4_toNat e, trunc1_eq_true_iff e⟩, ?lanes,
    trunc_expand4, trunc_expand5, trunc_expand6, trunc_expand1, ?sameFormat, ?a8888, ?noAlpha, ?key⟩
  case lanes =>
    intro l e f hf
    have hcomp (c : Component) : f c = (e.component c).toNat := by
      rw [hf]
      cases c <;> rfl
    rw [arrange_toNat, hcomp, hcomp, hcomp, hcomp]
  case sameFormat =>
    exact fun v bank h =>
      ⟨packR565_expandPixel v bank h, packA1555_expandPixel v bank h, packA4444_expandPixel v bank h⟩
  case a8888 =>
    intro v bank
    rw [arrange_reset, expandPixel, toWord_ofWord]
  case noAlpha =>
    intro v bank
    have halpha : (expandPixel .r565 bank v).a = 255 := rfl
    rw [halpha]
    decide
  case key =>
    intro x e
    rw [← keyed_iff]
    exact ⟨fun h => if_pos h, fun h => if_neg h⟩

end Sys2Proof.Proofs
end

section
/-! PROOFS. A change of a bank (chapters 2 and 3): the entries after a set of records (R30), the notice
that maps, request list and port take (R25, R65, R82, R83), and the commit event whole (R53, R120). -/

namespace Sys2Proof.Proofs

open Sys2Proof Sys2Proof.Machine Sys2Proof.Safety

/-! ## The entries after records are applied (R30) -/

/-- The record's run covers the index. -/
def covers (i : Nat) (r : UpdateRecord) : Bool :=
  decide (r.start.toNat ≤ i ∧ i < r.start.toNat + r.count)

/-- The record holds one colour for each index of its run, and the run lies in the bank. -/
def RunFull (r : UpdateRecord) : Prop :=
  r.colours.length = r.count ∧ r.start.toNat + r.count ≤ Palette.size

theorem runFull_of_recordOk {r : UpdateRecord} (h : RecordOk r) (hs : r.state ≠ .opened) :
    RunFull r := by
  obtain ⟨-, -, hrun, -, hfull⟩ := h
  exact ⟨hfull hs, hrun⟩

theorem read_applyRecord {p : List (Nat × Entry)} {r : UpdateRecord} (hp : Palette.wf p = true)
    (hr : RunFull r) (i : Nat) :
    Palette.read (applyRecord p r) i =
      if covers i r then r.colours.getD (i - r.start.toNat) Entry.zero else Palette.read p i := by
  obtain ⟨hlen, hrun⟩ := hr
  rw [applyRecord, Palette.read_writeRun hp (by omega), hlen]
  simp only [covers, decide_eq_true_eq]

/-- The records are applied in staging order, so the last one that covers an index decides. -/
theorem read_applyRecords {p : List (Nat × Entry)} {l : List UpdateRecord}
    (hp : Palette.wf p = true) (hl : ∀ r ∈ l, RunFull r) (i : Nat) :
    Palette.read (applyRecords p l) i =
      (l.reverse.find? (covers i)).elim (Palette.read p i)
        fun r => r.colours.getD (i - r.start.toNat) Entry.zero := by
  induction l using List.reverseRecOn with
  | nil => rfl
  | append_singleton l r ih =>
    have hl' : ∀ q ∈ l, RunFull q := fun q hq => hl q (by simp [hq])
    have hwf : Palette.wf (applyRecords p l) = true :=
      applyRecords_wf hp fun q hq => by
        obtain ⟨hlen, hrun⟩ := hl' q hq
        omega
    have hlast : applyRecords p (l ++ [r]) = applyRecord (applyRecords p l) r := by
      simp [applyRecords]
    rw [hlast, read_applyRecord hwf (hl r (by simp)), ih hl', List.reverse_concat, List.find?_cons]
    cases covers i r <;> rfl

theorem runFull_of_mem_pendingSet {s : State} {b : BankId} (h : ∀ r ∈ s.uq.records, RecordOk r) :
    ∀ r ∈ s.uq.pendingSet b, RunFull r := by
  intro r hr
  simp only [UpdateQueue.pendingSet, UpdateRecord.sealedFor, List.mem_filter,
    decide_eq_true_eq] at hr
  obtain ⟨hmem, -, hsealed⟩ := hr
  exact runFull_of_recordOk (h r hmem) (by simp [hsealed])

theorem not_sealedFor (r : UpdateRecord) (b : BankId) :
    (!r.sealedFor b) = decide (r.bank ≠ b ∨ r.state ≠ .sealed) := by
  rw [UpdateRecord.sealedFor, ← decide_not]
  exact decide_eq_decide.2 not_and_or

/-! ## The notice of a change (R25, R65, R82, R83) -/

theorem placesRequest_iff (s : State) (b : BankId) (m : MapId) :
    s.placesRequest b m = true ↔ (s.map m).state = .ready ∧ (s.map m).params.source = b ∧
      (s.map m).params.autoRebuild = true ∧ s.buildPending m = false := by
  simp [State.placesRequest, State.noticed, and_assoc]

/-- The request that the notice makes the map place, if it makes it place one. -/
def placedBy (s : State) (b : BankId) (m : MapId) : List BuildRequest :=
  if s.placesRequest b m then [{ map := m, params := (s.map m).params }] else []

theorem mem_placedBy {s : State} {b : BankId} {m : MapId} {r : BuildRequest} :
    r ∈ placedBy s b m ↔
      r.map = m ∧ s.placesRequest b m = true ∧ r.params = (s.map m).params := by
  obtain ⟨m', x⟩ := r
  unfold placedBy
  split <;> simp_all

theorem placedBy_maps_nodup (s : State) (b : BankId) (m : MapId) :
    ((placedBy s b m).map fun r => r.map).Nodup := by
  unfold placedBy
  split <;> simp

theorem noticeMap_map (s : State) (b : BankId) (m m' : MapId) :
    (s.noticeMap b m).map m' = if m' = m then mapAfterChange (s.map m) b else s.map m' := by
  rw [State.map, State.noticeMap_spec]
  dsimp only
  by_cases hn : s.noticed b m = true
  · rw [if_pos hn, PerMap.get_set, mapAfterChange, if_pos (of_decide_eq_true hn)]
    rfl
  · rw [if_neg hn, mapAfterChange, if_neg fun h => hn (decide_eq_true h)]
    split
    next heq => rw [heq, State.map]
    next => rfl

theorem noticeMap_engine (s : State) (b : BankId) (m : MapId) :
    (s.noticeMap b m).engine =
      { s.engine with requests := s.engine.requests ++ placedBy s b m } := by
  rw [State.noticeMap_spec]
  dsimp only
  by_cases hp : s.placesRequest b m = true
  · rw [placedBy, if_pos hp, if_pos hp]
  · rw [placedBy, if_neg hp, if_neg hp, List.append_nil]

theorem noticeMap_buildPending_other (s : State) (b : BankId) {m m' : MapId} (h : m' ≠ m) :
    (s.noticeMap b m).buildPending m' = s.buildPending m' := by
  have hnone : (placedBy s b m).any (fun r => r.map == m') = false := by
    simp only [List.any_eq_false, mem_placedBy, beq_iff_eq]
    rintro r ⟨rfl, -⟩
    exact h.symm
  simp only [State.buildPending, noticeMap_engine, List.any_append, hnone, Bool.or_false]

/-- The notice at one map leaves what the notice at the other one does. -/
theorem placedBy_noticeMap_other (s : State) (b : BankId) {m m' : MapId} (h : m' ≠ m) :
    placedBy (s.noticeMap b m) b m' = placedBy s b m' := by
  have hmap : (s.noticeMap b m).map m' = s.map m' := by rw [noticeMap_map, if_neg h]
  have hplaces : (s.noticeMap b m).placesRequest b m' = s.placesRequest b m' := by
    rw [Bool.eq_iff_iff, placesRequest_iff, placesRequest_iff, hmap,
      noticeMap_buildPending_other s b h]
  rw [placedBy, placedBy, hplaces, hmap]

/-- Both maps take the notice, one after the other; the order is free (log 6). -/
theorem noticeMaps_order (s : State) (b : BankId) :
    ∃ n m m', m' ≠ m ∧
      s.noticeMaps b = (State.noticeMap { s with freeCount := n } b m).noticeMap b m' := by
  unfold State.noticeMaps
  split
  · dsimp only
    split
    · exact ⟨_, .m1, .m0, by decide, rfl⟩
    · exact ⟨_, .m0, .m1, by decide, rfl⟩
  · exact ⟨s.freeCount, .m0, .m1, by decide, rfl⟩

theorem eq_or_eq_of_maps_ne : ∀ {m m' : MapId}, m' ≠ m → ∀ k, k = m ∨ k = m'
  | .m0, .m1, _, .m0 | .m1, .m0, _, .m1 => .inl rfl
  | .m0, .m1, _, .m1 | .m1, .m0, _, .m0 => .inr rfl
  | .m0, .m0, h, _ | .m1, .m1, h, _ => absurd rfl h

theorem noticeMaps_map (s : State) (b : BankId) (k : MapId) :
    (s.noticeMaps b).map k = mapAfterChange (s.map k) b := by
  obtain ⟨n, m, m', hne, horder⟩ := noticeMaps_order s b
  rw [horder, noticeMap_map, noticeMap_map, noticeMap_map, if_neg hne]
  rcases eq_or_eq_of_maps_ne hne k with rfl | rfl
  · rw [if_neg hne.symm, if_pos rfl]
    rfl
  · rw [if_pos rfl]
    rfl

theorem noticeMaps_engine (s : State) (b : BankId) :
    ∃ m m', m' ≠ m ∧ (s.noticeMaps b).engine =
      { s.engine with
        requests := s.engine.requests ++ (placedBy s b m ++ placedBy s b m') } := by
  obtain ⟨n, m, m', hne, horder⟩ := noticeMaps_order s b
  refine ⟨m, m', hne, ?_⟩
  rw [horder, noticeMap_engine, noticeMap_engine, placedBy_noticeMap_other _ _ hne,
    List.append_assoc]
  rfl

/-- The requests of both maps, in either order, are those that a change of the bank asks for. -/
theorem requestsAfterChange_placedBy (s : State) (b : BankId) {m m' : MapId} (hne : m' ≠ m) :
    RequestsAfterChange s b (s.engine.requests ++ (placedBy s b m ++ placedBy s b m')) := by
  refine ⟨_, rfl, ?nodup, fun r => ?mem⟩
  case nodup =>
    rw [List.map_append]
    refine (placedBy_maps_nodup s b m).append (placedBy_maps_nodup s b m') fun k hk hk' => hne ?_
    obtain ⟨q, hq, rfl⟩ := List.mem_map.1 hk
    obtain ⟨q', hq', heq⟩ := List.mem_map.1 hk'
    rw [← (mem_placedBy.1 hq).1, ← (mem_placedBy.1 hq').1, heq]
  case mem =>
    have hmap : r.map = m ∨ r.map = m' := eq_or_eq_of_maps_ne hne r.map
    have hplaced : r ∈ placedBy s b m ++ placedBy s b m' ↔
        s.placesRequest b r.map = true ∧ r.params = (s.map r.map).params := by
      rw [List.mem_append, mem_placedBy, mem_placedBy]
      constructor
      · rintro (⟨rfl, h⟩ | ⟨rfl, h⟩) <;> exact h
      · intro h
        exact hmap.imp (fun hm => ⟨hm, hm ▸ h⟩) (fun hm => ⟨hm, hm ▸ h⟩)
    rw [hplaced, placesRequest_iff]
    simp only [and_assoc]

theorem notice_map (s : State) (b : BankId) (m : MapId) :
    (s.notice b).map m = mapAfterChange (s.map m) b := by
  rw [← noticeMaps_map]
  exact congrArg (·.get m) (State.invalidate_maps _ _)

/-- The engine keeps all but its requests, and they are those of R83. -/
theorem notice_engine (s : State) (b : BankId) :
    (s.notice b).engine = { s.engine with requests := (s.notice b).engine.requests } ∧
      RequestsAfterChange s b (s.notice b).engine.requests := by
  obtain ⟨m, m', hne, hengine⟩ := noticeMaps_engine s b
  rw [State.notice, State.invalidate_engine, hengine]
  exact ⟨rfl, requestsAfterChange_placedBy s b hne⟩

theorem noticeMaps_port (s : State) (b : BankId) : (s.noticeMaps b).port = s.port := by
  obtain ⟨n, m, m', -, horder⟩ := noticeMaps_order s b
  rw [horder, State.noticeMap_spec, State.noticeMap_spec]

theorem notice_port (s : State) (b : BankId) :
    (s.notice b).port = portAfterChange s.port (.bank b) := by
  rw [State.notice, State.invalidate_spec, noticeMaps_port]
  rfl

/-! ## The commit event (R53, R120) -/

/-- The state that a commit event notices: the bank has its new entries and generation, the applied
records have left, and the COMMIT record is inserted if one of them asks for it. -/
def committed (s : State) (b : BankId) : State :=
  { s with
    banks := s.banks.set b { s.bank b with
      entries := applyRecords (s.bank b).entries (s.uq.pendingSet b)
      generation := (s.bank b).generation + 1 }
    uq := { records := s.uq.records.filter fun r => !r.sealedFor b
            commit := s.uq.commit.set b .none }
    eq := if s.uq.asksNotice b
      then s.eq.insert (commitRecordOf b ((s.bank b).generation + 1) s.scanout.frame) else s.eq }

theorem commitRecord_eq (s : State) (b : BankId) :
    ((s.applyPending b).dropPending b).commitRecord b =
      commitRecordOf b ((s.bank b).generation + 1) s.scanout.frame := by
  have hbank : (((s.applyPending b).dropPending b).bank b).generation =
      (s.bank b).generation + 1 := by
    change ((s.applyPending b).bank b).generation = _
    rw [State.applyPending, State.bank_setBank_same]
  rw [State.commitRecord, hbank]
  rfl

theorem commit_eq (s : State) (b : BankId) :
    s.commit b = ((committed s b).notice b).wakeBank b := by
  unfold State.commit committed
  dsimp only
  rw [commitRecord_eq]
  split <;> rfl

theorem commit_bank (s : State) (b b' : BankId) :
    (s.commit b).bank b' = if b' = b
      then { s.bank b with
        entries := applyRecords (s.bank b).entries (s.uq.pendingSet b)
        generation := (s.bank b).generation + 1 }
      else s.bank b' := by
  have hbanks : (s.commit b).banks = (committed s b).banks := by
    rw [commit_eq, State.wakeBank_spec, State.notice_banks]
  rw [State.bank, hbanks]
  exact PerBank.get_set _ _ _ _

theorem commit_uq (s : State) (b : BankId) :
    (s.commit b).uq =
      { records := s.uq.records.filter fun r => decide (r.bank ≠ b ∨ r.state ≠ .sealed)
        commit := s.uq.commit.set b .none } := by
  rw [commit_eq, State.wakeBank_spec, State.notice_uq]
  simp only [committed, not_sealedFor]

theorem commit_commitOf (s : State) (b b' : BankId) :
    (s.commit b).commitOf b' = if b' = b then .none else s.commitOf b' := by
  rw [State.commitOf, commit_uq]
  exact PerBank.get_set _ _ _ _

theorem commit_eventQueue (s : State) (b : BankId) :
    (s.commit b).eq = if s.uq.asksNotice b
      then s.eq.insert (commitRecordOf b ((s.bank b).generation + 1) s.scanout.frame)
      else s.eq := by
  rw [commit_eq, State.wakeBank_spec, State.notice_eq]
  rfl

theorem commit_map (s : State) (b : BankId) (m : MapId) :
    (s.commit b).map m = mapAfterChange (s.map m) b := by
  rw [commit_eq]
  exact notice_map (committed s b) b m

theorem commit_port (s : State) (b : BankId) :
    (s.commit b).port = portAfterChange s.port (.bank b) := by
  rw [commit_eq]
  exact notice_port (committed s b) b

theorem commit_engine (s : State) (b : BankId) :
    (s.commit b).engine = { s.engine with requests := (s.commit b).engine.requests } ∧
      RequestsAfterChange s b (s.commit b).engine.requests := by
  rw [commit_eq]
  exact notice_engine (committed s b) b

theorem commit_chan (s : State) (b : BankId) (c : Chan) :
    (s.commit b).chan c = chanAfterCommit (s.chan c) b := by
  rw [commit_eq, State.wakeBank_chan, State.chan, State.notice_channels]
  rfl

/-- Settles O18: the last covering record decides an entry (`read_applyRecords`), and the commit event
is the bank's change followed by its notice and the waking of the channels (`commit_eq`). -/
theorem commitEventAppliesThePendingSet : Obligations.CommitEventAppliesThePendingSet := by
  unfold Obligations.CommitEventAppliesThePendingSet
  rintro s t b hwf hok rfl
  have hbank := commit_bank s b b
  rw [if_pos rfl] at hbank
  obtain ⟨hengine, hrequests⟩ := commit_engine s b
  refine ⟨fun i => ?entries, by rw [hbank], by rw [hbank], fun b' hne => ⟨?otherBank, ?otherCommit⟩,
    ?commitState, by rw [commit_uq], commit_eventQueue s b, commit_map s b, commit_port s b, hengine,
    hrequests, commit_chan s b, State.commit_scanout s b, State.commit_hostFaults s b,
    State.commit_enables s b, State.commit_timebase s b, State.commit_bus s b,
    State.commit_pending s b⟩
  case entries =>
    rw [hbank]
    refine (read_applyRecords hwf (runFull_of_mem_pendingSet hok) i).trans ?_
    unfold covers
    cases (s.uq.pendingSet b).reverse.find? _ <;> rfl
  case otherBank => rw [commit_bank, if_neg hne]
  case otherCommit => rw [commit_commitOf, if_neg hne]
  case commitState => rw [commit_commitOf, if_pos rfl]

end Sys2Proof.Proofs
end

section
/-! PROOFS. The update queue's commands (chapter 3): the fields and the decoding of a written command
word (R47, R177), staging (R39 to R41), DISCARD (R46) and SEAL with its commit point (R43, R44). -/

namespace Sys2Proof.Proofs

open Sys2Proof Sys2Proof.Machine

/-! ## The command a written word is (R177, Table 11-6) -/

theorem fieldAt_toNat (v : Word) (lo w : Nat) :
    (fieldAt v lo w).toNat = v.toNat / 2 ^ lo % 2 ^ w := by
  rw [fieldAt_eq_ofNat, BitVec.toNat_ofNat]

/-- Every 2-bit value names the bank of that number (R47). -/
@[simp] theorem code_ofCode : ∀ x : BitVec 2, (BankId.ofCode x).code = x := by decide

theorem accessReg_offset (r : Reg) : accessReg 32 r.offset = some r := by
  cases r with
  | bankStatus b => cases b <;> rfl
  | mapStatus m => cases m <;> rfl
  | ctx c x => cases c <;> cases x <;> rfl
  | jobCount c | jobWidth c | jobPush c | chCmd c | chStatus c | chProgress c | chIn c | chOut c =>
    cases c <;> rfl
  | _ => rfl

theorem decodeAccess_writeOf {r : Reg} (h : r.writable = true) (v : Word) :
    decodeAccess (writeOf r v) = decodeWrite r v := by
  simp only [decodeAccess, writeOf, accessReg_offset, h, if_true]

theorem decodeAccess_writeOf_stgCmd (v : Word) :
    decodeAccess (writeOf .stgCmd v) = some (decodeStgCmd v) := decodeAccess_writeOf rfl v

theorem decodeAccess_writeOf_bldCmd (v : Word) :
    decodeAccess (writeOf .bldCmd v) = some (decodeBldCmd v) := decodeAccess_writeOf rfl v

theorem decodeAccess_writeOf_chCmd (c : Chan) (v : Word) :
    decodeAccess (writeOf (.chCmd c) v) = some (decodeChCmd c v) := decodeAccess_writeOf rfl v

/-- The command field of a command word, as a number. -/
theorem commandField_eq_iff (v : Word) (x : BitVec 2) :
    fieldAt v 0 2 = x ↔ v.toNat % 4 = x.toNat := by
  rw [← BitVec.toNat_inj, fieldAt_toNat, pow_zero, Nat.div_one, show 2 ^ 2 = 4 from rfl]

/-- The bank field of a STG_CMD word, as a number. -/
theorem stgCmdBank_code (v : Word) :
    (BankId.ofCode (fieldAt v 4 2)).code.toNat = v.toNat / 16 % 4 := by
  rw [code_ofCode, fieldAt_toNat]
  rfl

theorem decodeStgCmd_seal {v : Word} (h : v.toNat % 4 = 1) :
    decodeStgCmd v =
      .stgCmdSeal (BankId.ofCode (fieldAt v 4 2)) (decide (v.toNat / 256 % 2 = 1)) := by
  rw [decodeStgCmd, if_pos ((commandField_eq_iff v 1).2 h), bitAt_eq_decide]
  rfl

theorem decodeStgCmd_discard {v : Word} (h : v.toNat % 4 = 2) :
    decodeStgCmd v = .stgCmdDiscard (BankId.ofCode (fieldAt v 4 2)) := by
  have hcode : fieldAt v 0 2 = 2 := (commandField_eq_iff v 2).2 h
  simp [decodeStgCmd, hcode]

/-- Codes 0 and 3 name no command of STG_CMD or BLD_CMD (R47, R107). -/
theorem commandField_ne {v : Word} (h : v.toNat % 4 = 0 ∨ v.toNat % 4 = 3) :
    fieldAt v 0 2 ≠ 1 ∧ fieldAt v 0 2 ≠ 2 := by
  rw [ne_eq, ne_eq, commandField_eq_iff, commandField_eq_iff]
  rcases h with h | h <;> rw [h] <;> decide

theorem decodeStgCmd_ignored {v : Word} (h : v.toNat % 4 = 0 ∨ v.toNat % 4 = 3) :
    decodeStgCmd v = .stgCmdIgnored (fieldAt v 0 2) := by
  obtain ⟨h1, h2⟩ := commandField_ne h
  rw [decodeStgCmd, if_neg h1, if_neg h2]

theorem decodeBldCmd_ignored {v : Word} (h : v.toNat % 4 = 0 ∨ v.toNat % 4 = 3) :
    decodeBldCmd v = .bldCmdIgnored (fieldAt v 0 2) := by
  obtain ⟨h1, h2⟩ := commandField_ne h
  rw [decodeBldCmd, if_neg h1, if_neg h2]

theorem decodeChCmd_ignored {v : Word} (h : v.toNat % 4 = 0) (c : Chan) :
    decodeChCmd c v = .chCmdIgnored c (fieldAt v 0 2) := by
  have hcode : fieldAt v 0 2 = 0 := (commandField_eq_iff v 0).2 h
  simp [decodeChCmd, hcode]

/-! ## DISCARD and the ignored commands (R46, R47, R107, R135) -/

theorem exec_stgCmdDiscard {s : State} (hfree : s.port.stretched = false) (b : BankId) :
    exec (.stgCmdDiscard b) s = .next (s.withRecords
      (s.uq.records.filter fun r => decide (r.bank ≠ b ∨ r.state = .sealed))) := by
  rw [exec, execStgCmdDiscard, onBus_of_free _ hfree]

theorem exec_stgCmdIgnored {s : State} (hfree : s.port.stretched = false) (code : BitVec 2) :
    exec (.stgCmdIgnored code) s = .next (s.flag .cmdIgnored) := by
  rw [exec, execStgCmdIgnored, onBus_of_free _ hfree]

theorem exec_bldCmdIgnored {s : State} (hfree : s.port.stretched = false) (code : BitVec 2) :
    exec (.bldCmdIgnored code) s = .next (s.flag .cmdIgnored) := by
  rw [exec, execBldCmdIgnored, onBus_of_free _ hfree]

theorem exec_chCmdIgnored {s : State} (hfree : s.port.stretched = false) (c : Chan)
    (code : BitVec 2) : exec (.chCmdIgnored c code) s = .next (s.flag .cmdIgnored) := by
  rw [exec, execChCmdIgnored, onBus_of_free _ hfree]

/-- Settles O22: DISCARD is a filter of the records (`exec_stgCmdDiscard`), the command field of the
written word decides the command, and the ignored ones set their flag alone. -/
theorem discardAndUnknownCommands : Obligations.DiscardAndUnknownCommands := by
  unfold Obligations.DiscardAndUnknownCommands
  refine ⟨fun b s hfree => ?discard, fun v => ⟨fun h => ?sealCode, fun h => ?discardCode,
    fun h => ?otherCode, fun h c => ?channelCode⟩,
    fun code c s hfree => ⟨exec_stgCmdIgnored hfree code, exec_bldCmdIgnored hfree code,
      exec_chCmdIgnored hfree c code⟩⟩
  case discard =>
    have hkept : ∀ r : UpdateRecord,
        (r.bank ≠ b ∨ r.state = .sealed) ↔ ¬(r.bank = b ∧ r.state ≠ .sealed) :=
      fun r => by rw [not_and_or, not_ne_iff]
    rw [exec_stgCmdDiscard hfree]
    simp only [hkept]
    rfl
  case sealCode =>
    exact ⟨_, stgCmdBank_code v, by rw [decodeAccess_writeOf_stgCmd, decodeStgCmd_seal h]⟩
  case discardCode =>
    exact ⟨_, stgCmdBank_code v, by rw [decodeAccess_writeOf_stgCmd, decodeStgCmd_discard h]⟩
  case otherCode =>
    exact ⟨_, by rw [decodeAccess_writeOf_stgCmd, decodeStgCmd_ignored h],
      by rw [decodeAccess_writeOf_bldCmd, decodeBldCmd_ignored h]⟩
  case channelCode =>
    exact ⟨_, by rw [decodeAccess_writeOf_chCmd, decodeChCmd_ignored h]⟩

/-! ## Staging (R39 to R41) -/

theorem openRecord_eq_none_iff (q : UpdateQueue) :
    q.openRecord = none ↔ ∀ r ∈ q.records, r.state ≠ .opened := by
  simp only [UpdateQueue.openRecord, List.find?_eq_none, decide_eq_true_eq, ne_eq]

theorem openRecord_ne_none {q : UpdateQueue} {r : UpdateRecord} (hmem : r ∈ q.records)
    (hopen : r.state = .opened) : q.openRecord ≠ none :=
  fun hnone => (openRecord_eq_none_iff q).1 hnone r hmem hopen

/-- Without its OPEN record the queue holds the records before and after it (R40). -/
theorem withoutOpen_eq {q : UpdateQueue} {before after : List UpdateRecord} {r : UpdateRecord}
    (hrecords : q.records = before ++ r :: after) (hopen : r.state = .opened)
    (hothers : ∀ x ∈ before ++ after, x.state ≠ .opened) : q.withoutOpen = before ++ after := by
  have hkept : (before ++ after).filter (fun x => decide (x.state ≠ .opened)) = before ++ after :=
    List.filter_eq_self.2 fun x hx => decide_eq_true (hothers x hx)
  rw [UpdateQueue.withoutOpen, hrecords, List.filter_append,
    List.filter_cons_of_neg (by simp [hopen]), ← List.filter_append, hkept]

theorem append_of_not_open {r : UpdateRecord} (h : r.state ≠ .opened) (e : Entry) :
    r.append e = r := if_neg h

theorem append_of_open {r : UpdateRecord} (h : r.state = .opened) (e : Entry) :
    r.append e = { r with
      colours := r.colours ++ [e]
      state := if r.colours.length + 1 = r.count then .closed else .opened } := if_pos h

/-- The colour goes to the OPEN record, and every other keeps its place and contents (R41). -/
theorem map_append_eq {before after : List UpdateRecord} (r : UpdateRecord)
    (hothers : ∀ x ∈ before ++ after, x.state ≠ .opened) (e : Entry) :
    (before ++ r :: after).map (fun x => x.append e) = before ++ r.append e :: after := by
  have hkeep : ∀ l : List UpdateRecord, (∀ x ∈ l, x.state ≠ .opened) →
      l.map (fun x => x.append e) = l := fun l hl =>
    (List.map_congr_left fun x hx => append_of_not_open (hl x hx) e).trans l.map_id
  rw [List.map_append, List.map_cons, hkeep before fun x hx => hothers x (List.mem_append_left _ hx),
    hkeep after fun x hx => hothers x (List.mem_append_right _ hx)]

/-- The refusals of R39, on the numbers of the written word. -/
theorem refusesHeader_ofWord (q : UpdateQueue) (v : Word) :
    q.refusesHeader (StgHeader.ofWord v) = true ↔
      (v.toNat / 256 % 16 = 0 ∨ 8 < v.toNat / 256 % 16 ∨
        255 < v.toNat % 256 + v.toNat / 256 % 16 - 1 ∨ 32 ≤ q.records.length ∨
        128 < (q.records.map fun r => r.count).sum + v.toNat / 256 % 16) := by
  simp only [UpdateQueue.refusesHeader, StgHeader.ofWord, fieldAt_toNat, Config.maxRecords,
    Config.maxColourWords, UpdateQueue.recordCount, UpdateQueue.wordCount, decide_eq_true_eq,
    pow_zero, Nat.div_one, Nat.reducePow]

theorem openRecord_of_refused {s : State} {h : StgHeader}
    (hrefused : s.uq.refusesHeader h = true) : s.openRecord h = s.flag .stageRefused :=
  if_pos hrefused

theorem openRecord_of_accepted {s : State} {h : StgHeader}
    (haccepted : ¬s.uq.refusesHeader h = true) :
    s.openRecord h = s.withRecords (s.uq.records ++ [h.record]) := if_neg haccepted

theorem exec_stgHdr_of_none_open {s : State} (hfree : s.port.stretched = false)
    (hnone : ∀ r ∈ s.uq.records, r.state ≠ .opened) (v : Word) :
    exec (.stgHdr v) s = .next (s.openRecord (StgHeader.ofWord v)) := by
  rw [exec, execStgHdr, onBus_of_free _ hfree, if_pos ((openRecord_eq_none_iff _).2 hnone)]

theorem exec_stgHdr_of_open {s : State} (hfree : s.port.stretched = false)
    (hopen : s.uq.openRecord ≠ none) (v : Word) :
    exec (.stgHdr v) s = .next
      (((s.withRecords s.uq.withoutOpen).flag .stageRefused).openRecord (StgHeader.ofWord v)) := by
  rw [exec, execStgHdr, onBus_of_free _ hfree, if_neg hopen]

theorem exec_stgData_of_none_open {s : State} (hfree : s.port.stretched = false)
    (hnone : ∀ r ∈ s.uq.records, r.state ≠ .opened) (v : Word) :
    exec (.stgData v) s = .next (s.flag .stageRefused) := by
  rw [exec, execStgData, onBus_of_free _ hfree, if_pos ((openRecord_eq_none_iff _).2 hnone)]

theorem exec_stgData_of_open {s : State} (hfree : s.port.stretched = false)
    (hopen : s.uq.openRecord ≠ none) (v : Word) :
    exec (.stgData v) s =
      .next (s.withRecords (s.uq.records.map fun r => r.append (Entry.ofWord v))) := by
  rw [exec, execStgData, onBus_of_free _ hfree, if_neg hopen]

/-- Settles O21: a header is judged by `refusesHeader_ofWord`, an OPEN record it finds leaves first
(`withoutOpen_eq`), and a colour reaches the OPEN record alone (`map_append_eq`). -/
theorem stagingOpensAndFillsRecords : Obligations.StagingOpensAndFillsRecords := by
  unfold Obligations.StagingOpensAndFillsRecords
  refine ⟨fun v s hfree hnone => ⟨fun hbad => ?refused, fun hgood => ?accepted⟩,
    fun v s before after r hfree hrecords hopen hothers => ?discards,
    fun v s hfree => ⟨fun hnone => exec_stgData_of_none_open hfree hnone v,
      fun before after r hrecords hopen hothers => ?appends⟩⟩
  case refused =>
    rw [exec_stgHdr_of_none_open hfree hnone,
      openRecord_of_refused ((refusesHeader_ofWord _ v).2 hbad)]
    rfl
  case accepted =>
    refine ⟨(StgHeader.ofWord v).record, ?_, ?_, ?_, fieldAt_toNat v 8 4, rfl, rfl⟩
    · rw [exec_stgHdr_of_none_open hfree hnone,
        openRecord_of_accepted (mt (refusesHeader_ofWord _ v).1 hgood)]
      rfl
    · simp [StgHeader.record, StgHeader.ofWord, fieldAt_toNat]
    · simp [StgHeader.record, StgHeader.ofWord, fieldAt_toNat]
  case discards =>
    have hmem : r ∈ s.uq.records := by simp [hrecords]
    rw [exec_stgHdr_of_open hfree (openRecord_ne_none hmem hopen),
      withoutOpen_eq hrecords hopen hothers]
    exact (exec_stgHdr_of_none_open (s := (s.withRecords (before ++ after)).flag .stageRefused)
      hfree hothers v).symm
  case appends =>
    have hmem : r ∈ s.uq.records := by simp [hrecords]
    rw [exec_stgData_of_open hfree (openRecord_ne_none hmem hopen), hrecords,
      map_append_eq r hothers, append_of_open hopen]
    rfl

/-! ## SEAL and its commit point (R43, R44, R49, R54) -/

/-- A non-display bank that is not PENDING, or is held or displayed, is left (R49). -/
theorem judgeBank_waits {s : State} {b : BankId}
    (h : s.commitOf b ≠ .pending ∨ (s.bank b).holders ≠ 0 ∨ s.hasRole b = true) :
    s.judgeBank b = s := by
  obtain ⟨-, hleft⟩ | ⟨⟨hpending, hholders, hrole⟩, -⟩ := s.judgeBank_cases b
  · exact hleft
  · simp [hpending, hholders, hrole] at h

/-- A PENDING bank without holds and display role has its commit attempted (R49). -/
theorem judgeBank_attempts {s : State} {b : BankId} (hpending : s.commitOf b = .pending)
    (hholders : (s.bank b).holders = 0) (hrole : s.hasRole b = false) :
    s.judgeBank b = s.attemptCommit b := if_pos ⟨hpending, hholders, hrole⟩

/-- An attempt that wants no notice, or finds room for it, is the commit event (R54). -/
theorem attemptCommit_commits {s : State} {b : BankId}
    (h : s.uq.asksNotice b = false ∨ s.eq.hasRoom .routine = true) :
    s.attemptCommit b = s.commit b := by
  obtain ⟨⟨hasks, hfull⟩, -⟩ | ⟨-, hcommit⟩ := s.attemptCommit_cases b
  · simp [hasks, hfull] at h
  · exact hcommit

/-- An attempt that finds no room for its notice defers a bank without display role (R54). -/
theorem attemptCommit_defers {s : State} {b : BankId} (hasks : s.uq.asksNotice b = true)
    (hfull : s.eq.hasRoom .routine = false) (hrole : s.hasRole b = false) :
    s.attemptCommit b = s.setCommit b .deferred := by
  simp [State.attemptCommit, hasks, hfull, hrole]

/-- The state whose bank a SEAL judges: the CLOSED records of the bank SEALED with the notify value, the
bank no longer NONE (R43, R56). -/
def afterSeal (s : State) (b : BankId) (n : Bool) : State :=
  { s with uq :=
    { records := s.uq.records.map fun r =>
        if r.bank = b ∧ r.state = .closed then { r with state := .sealed, notify := n } else r
      commit := s.uq.commit.set b (if s.commitOf b = .none then .pending else s.commitOf b) } }

theorem sealing_eq (c : CommitState) : c.sealing = if c = .none then .pending else c := by
  cases c <;> rfl

theorem setCommit_seal_eq_afterSeal (s : State) (b : BankId) (n : Bool) :
    (s.withRecords (s.uq.records.map fun r => r.seal b n)).setCommit b (s.commitOf b).sealing =
      afterSeal s b n := by
  simp only [UpdateRecord.seal, UpdateRecord.closedFor, decide_eq_true_eq, sealing_eq]
  rfl

theorem afterSeal_commitOf (s : State) (b : BankId) (n : Bool) :
    (afterSeal s b n).commitOf b = if s.commitOf b = .none then .pending else s.commitOf b :=
  PerBank.get_set_same _ _ _

theorem afterSeal_commitOf_of_deferred {s : State} {b : BankId} (h : s.commitOf b = .deferred)
    (n : Bool) : (afterSeal s b n).commitOf b = .deferred := by
  simp [afterSeal_commitOf, h]

theorem afterSeal_commitOf_of_not_deferred {s : State} {b : BankId} (h : s.commitOf b ≠ .deferred)
    (n : Bool) : (afterSeal s b n).commitOf b = .pending := by
  rw [afterSeal_commitOf]
  cases hc : s.commitOf b with
  | none | pending => rfl
  | deferred => exact absurd hc h

theorem exec_stgCmdSeal_of_none_closed {s : State} {b : BankId} (hfree : s.port.stretched = false)
    (hnone : ∀ r ∈ s.uq.records, ¬(r.bank = b ∧ r.state = .closed)) (n : Bool) :
    exec (.stgCmdSeal b n) s = .next s := by
  rw [exec, execStgCmdSeal, onBus_of_free _ hfree, if_neg]
  simpa only [UpdateRecord.closedFor, List.any_eq_true, decide_eq_true_eq, not_exists, not_and]
    using hnone

theorem exec_stgCmdSeal_of_closed {s : State} {b : BankId} (hfree : s.port.stretched = false)
    (hclosed : ∃ r ∈ s.uq.records, r.bank = b ∧ r.state = .closed) (n : Bool) :
    exec (.stgCmdSeal b n) s = .next ((afterSeal s b n).judgeBank b).lookForBuild := by
  rw [exec, execStgCmdSeal, onBus_of_free _ hfree, if_pos, setCommit_seal_eq_afterSeal]
  simpa only [UpdateRecord.closedFor, List.any_eq_true, decide_eq_true_eq] using hclosed

/-- Settles O19: a SEAL that finds a CLOSED record judges its bank in the state `afterSeal`
(`exec_stgCmdSeal_of_closed`), where a bank without display role and holds has its commit attempted. -/
theorem sealMarksRecordsAndMayCommit : Obligations.SealMarksRecordsAndMayCommit := by
  unfold Obligations.SealMarksRecordsAndMayCommit
  intro b n s u hfree hu
  change u = afterSeal s b n at hu
  subst hu
  refine ⟨fun hnone => exec_stgCmdSeal_of_none_closed hfree hnone n, fun hclosed => ?_⟩
  rw [exec_stgCmdSeal_of_closed hfree hclosed]
  refine ⟨fun hwaits => ?waits, fun hdeferred hholders hrole => ?attempts⟩
  case waits =>
    have hleft : (afterSeal s b n).judgeBank b = afterSeal s b n :=
      judgeBank_waits (hwaits.imp_left fun h => by simp [afterSeal_commitOf_of_deferred h n])
    rw [hleft]
  case attempts =>
    rw [judgeBank_attempts (afterSeal_commitOf_of_not_deferred hdeferred n) hholders hrole]
    exact ⟨fun hroom => by rw [attemptCommit_commits hroom],
      fun hasks hfull => by rw [attemptCommit_defers hasks hfull hrole]⟩

end Sys2Proof.Proofs
end

section
/-! PROOFS. The table access port's writes (chapter 4): which addresses AP_ADDR takes (R60), and the
refused writes of AP_DATA (R28, R69, R70). -/

namespace Sys2Proof.Proofs

open Sys2Proof Sys2Proof.Machine

/-! ## The targets and their numbers (R60) -/

theorem targetOfCode_eq_none_iff : ∀ x : BitVec 3, PortTarget.ofCode x = none ↔ 6 ≤ x.toNat := by
  decide

theorem code_of_targetOfCode : ∀ x : BitVec 3, ∀ t ∈ PortTarget.ofCode x, t.code = x := by
  decide

/-- Targets 0 to 3 are the banks, of 256 positions; the others are the maps, of 512. -/
theorem positions_eq (t : PortTarget) :
    t.positions = if t.code.toNat < 4 then 256 else 512 := by
  cases t with
  | bank b => cases b <;> rfl
  | map m => cases m <;> rfl

/-! ## The address a written AP_ADDR word gives (R60) -/

theorem apAddress_eq_none_iff (v : Word) : apAddress v = none ↔
    6 ≤ v.toNat / 65536 % 8 ∨ v.toNat / 65536 % 8 < 4 ∧ 255 < v.toNat % 512 := by
  have hcode : (fieldAt v 16 3).toNat = v.toNat / 65536 % 8 := fieldAt_toNat v 16 3
  have hindex : (fieldAt v 0 9).toNat = v.toNat % 512 := by
    rw [fieldAt_toNat, pow_zero, Nat.div_one]
    rfl
  rw [apAddress, ← hcode, ← hindex]
  cases htarget : PortTarget.ofCode (fieldAt v 16 3) with
  | none => simp only [(targetOfCode_eq_none_iff _).1 htarget, true_or]
  | some t =>
    have hlow : (fieldAt v 16 3).toNat < 6 := by
      rw [← not_le, ← targetOfCode_eq_none_iff, htarget]; exact Option.some_ne_none t
    have hpos := positions_eq t
    rw [code_of_targetOfCode _ t htarget] at hpos
    have hi := (fieldAt v 0 9).isLt
    simp only [ite_eq_right_iff, reduceCtorEq, imp_false, hpos]
    split <;> omega

theorem apAddress_some {v : Word} {t : PortTarget} {i : Nat} (h : apAddress v = some (t, i)) :
    t.code.toNat = v.toNat / 65536 % 8 ∧ i = v.toNat % 512 := by
  rw [apAddress] at h
  cases htarget : PortTarget.ofCode (fieldAt v 16 3) with
  | none => simp [htarget] at h
  | some t' =>
    simp only [htarget, Option.ite_none_right_eq_some, Option.some.injEq, Prod.mk.injEq] at h
    obtain ⟨-, rfl, rfl⟩ := h
    rw [code_of_targetOfCode _ t' htarget, fieldAt_toNat, fieldAt_toNat, pow_zero, Nat.div_one]
    exact ⟨rfl, rfl⟩

theorem exec_apAddr_of_refused {s : State} (hfree : s.port.stretched = false) {v : Word}
    (h : apAddress v = none) : exec (.apAddr v) s = .next (s.flag .accessRefused) := by
  rw [exec, execApAddr, onBus_of_free _ hfree, h]

theorem exec_apAddr_of_accepted {s : State} (hfree : s.port.stretched = false) {v : Word}
    {t : PortTarget} {i : Nat} (h : apAddress v = some (t, i)) :
    exec (.apAddr v) s = .next (s.withPort
      { target := t, index := i, items := [], filling := true, stretched := false }) := by
  rw [exec, execApAddr, onBus_of_free _ hfree, h]

/-- AP_ADDR reads as its two fields, the index below the target's number. -/
theorem apAddrRead_toNat {s : State} (h : s.port.index < 512) :
    s.apAddrRead.toNat = s.port.index + 65536 * s.port.target.code.toNat := by
  have hindex : (putNat 9 s.port.index 0).toNat = s.port.index := by
    rw [putNat, putAt_toNat _ _ (by decide), BitVec.toNat_ofNat, pow_zero, Nat.one_mul]
    exact Nat.mod_eq_of_lt h
  rw [State.apAddrRead, BitVec.or_comm, putAt_or_toNat _ _ _ (by omega) (by decide), hindex,
    Nat.add_comm]
  rfl

/-! ## Refused writes of AP_DATA (R28, R69, R70) -/

theorem acceptsWrite_eq_false {s : State} {b : BankId}
    (h : (s.bank b).holders ≠ 0 ∨ s.hasRole b = true ∨ s.sealedPending b = true) :
    s.acceptsWrite b = false := by
  rcases h with hheld | hrole | hsealed
  · simp [State.acceptsWrite, hheld]
  · simp [State.acceptsWrite, hrole]
  · simp [State.acceptsWrite, hsealed]

/-- A refused write moves the index on with its item and sets ACCESS_REFUSED. -/
theorem advance_flag_eq (s : State) : (s.withPort s.port.advance).flag .accessRefused =
    { s with
      port := { s.port with index := (s.port.index + 1) % s.port.target.positions,
                            items := s.port.items.drop 1, filling := true }
      hostFaults := s.hostFaults ||| 8 } := by
  rw [List.drop_one]
  rfl

theorem exec_apDataWrite_of_map {s : State} (hfree : s.port.stretched = false) {m : MapId}
    (h : s.port.target = .map m) (v : Word) :
    exec (.apDataWrite v) s = .next ((s.withPort s.port.advance).flag .accessRefused) := by
  rw [exec, execApDataWrite, onBus_of_free _ hfree, h]

theorem exec_apDataWrite_of_refused {s : State} (hfree : s.port.stretched = false) {b : BankId}
    (h : s.port.target = .bank b) (hrefused : s.acceptsWrite b = false) (v : Word) :
    exec (.apDataWrite v) s = .next ((s.withPort s.port.advance).flag .accessRefused) := by
  rw [exec, execApDataWrite, onBus_of_free _ hfree, h]
  simp only [hrefused, Bool.false_eq_true, if_false]

/-- Settles O25: AP_ADDR is refused exactly where `apAddress` gives no address, and a refused write
of AP_DATA, to a map or to a bank, is the one effect of `advance_flag_eq`. -/
theorem portJudgesAddressesAndWrites : Obligations.PortJudgesAddressesAndWrites := by
  unfold Obligations.PortJudgesAddressesAndWrites
  refine ⟨fun v s hfree => ⟨fun hrefused => ?addrRefused, fun haccepted => ?addrAccepted⟩,
    fun s hindex => ⟨_, rfl, apAddrRead_toNat hindex⟩,
    fun v s hfree => ⟨fun m htarget => ?dataToMap, fun b htarget hkept => ?dataToBank⟩⟩
  case addrRefused =>
    rw [exec_apAddr_of_refused hfree ((apAddress_eq_none_iff v).2 hrefused)]
    rfl
  case addrAccepted =>
    rw [← apAddress_eq_none_iff, ← ne_eq, Option.ne_none_iff_exists'] at haccepted
    obtain ⟨⟨t, i⟩, haddress⟩ := haccepted
    obtain ⟨hcode, rfl⟩ := apAddress_some haddress
    exact ⟨t, exec_apAddr_of_accepted hfree haddress, hcode⟩
  case dataToMap =>
    rw [exec_apDataWrite_of_map hfree htarget, advance_flag_eq, htarget, PortTarget.positions]
  case dataToBank =>
    rw [exec_apDataWrite_of_refused hfree htarget (acceptsWrite_eq_false hkept), advance_flag_eq,
      htarget, PortTarget.positions]

end Sys2Proof.Proofs
end

section
/-! PROOFS. The reduction of a colour (chapter 5): the transparent index (R88), the cell's choice
(R89), and how many positions of a block show second (R89, Table 5-7). -/

namespace Sys2Proof.Proofs

open Sys2Proof Sys2Proof.Machine

/-! ## Table 5-7 -/

theorem ditherThreshold_mod (row col : Nat) :
    ditherThreshold (row % 4) (col % 4) = ditherThreshold row col := by
  simp only [ditherThreshold, Nat.mod_mod]

/-- Table 5-7 read row by row. -/
theorem ditherThreshold_eq_getD (row col : Nat) :
    ditherThreshold row col =
      ([0, 8, 2, 10, 12, 4, 14, 6, 3, 11, 1, 9, 15, 7, 13, 5] : List Nat).getD
        (4 * (row % 4) + col % 4) 0 := by
  have hcell : ∀ r < 4, ∀ c < 4, ditherThreshold r c =
      ([0, 8, 2, 10, 12, 4, 14, 6, 3, 11, 1, 9, 15, 7, 13, 5] : List Nat).getD (4 * r + c) 0 := by
    decide
  rw [← ditherThreshold_mod]
  exact hcell _ (Nat.mod_lt _ (by decide)) _ (Nat.mod_lt _ (by decide))

/-- Every aligned block of 4 by 4 positions has the thresholds of the first one. -/
theorem ditherThreshold_aligned (i j row col : Nat) :
    ditherThreshold (4 * j + row) (4 * i + col) = ditherThreshold row col := by
  rw [← ditherThreshold_mod, Nat.mul_add_mod, Nat.mul_add_mod, ditherThreshold_mod]

/-- Each threshold from 0 to 15 appears once in Table 5-7. -/
theorem ditherThresholds_perm_range :
    ((List.range 16).map fun p => ditherThreshold (p / 4) (p % 4)).Perm (List.range 16) := by
  decide

theorem countP_lt_range_sixteen :
    ∀ w ≤ 16, (List.range 16).countP (fun n => decide (n < w)) = w := by
  decide

/-- A weight is above as many thresholds of a block as it says. -/
theorem countP_ditherThreshold_lt {w : Nat} (h : w ≤ 16) :
    (List.range 16).countP (fun p => decide (ditherThreshold (p / 4) (p % 4) < w)) = w := by
  calc (List.range 16).countP (fun p => decide (ditherThreshold (p / 4) (p % 4) < w))
      = ((List.range 16).map fun p => ditherThreshold (p / 4) (p % 4)).countP
          (fun n => decide (n < w)) := by rw [List.countP_map]; rfl
    _ = (List.range 16).countP (fun n => decide (n < w)) := ditherThresholds_perm_range.countP_eq _
    _ = w := countP_lt_range_sixteen w h

/-! ## The index of an entry (R88, R89) -/

theorem choose_of_no_second {c : Cell} (h : c.second = none) (dither : Bool) (x y : Nat) :
    c.choose dither x y = c.best := by
  rw [Cell.choose, h]

theorem choose_of_second {c : Cell} {t : Byte} (h : c.second = some t) (dither : Bool) (x y : Nat) :
    c.choose dither x y =
      if dither = true ∧ ditherThreshold y x < c.weight then t else c.best := by
  rw [Cell.choose, h]

theorem choose_eq_second_iff {c : Cell} {t : Byte} (h : c.second = some t) (hne : t ≠ c.best)
    (x y : Nat) : c.choose true x y = t ↔ ditherThreshold y x < c.weight := by
  rw [choose_of_second h]
  split
  case isTrue hshown => exact iff_of_true rfl hshown.2
  case isFalse hkept => exact iff_of_false hne.symm fun hlt => hkept ⟨rfl, hlt⟩

theorem reduce_of_transparent {m : ReductionMap} {e : Entry} {t : Byte} (halpha : e.a = 0)
    (h : m.params.transparent = some t) (dither : Bool) (x y : Nat) :
    m.reduce dither e x y = t := by
  simp only [ReductionMap.reduce, if_pos halpha, h]

theorem reduce_of_cell {m : ReductionMap} {e : Entry} {c : Cell}
    (hcolour : e.a ≠ 0 ∨ m.params.transparent = none)
    (h : m.cells[m.params.cellOf e]? = some c) (dither : Bool) (x y : Nat) :
    m.reduce dither e x y = c.choose dither x y := by
  have hnone : (if e.a = 0 then m.params.transparent else none) = none := by
    rcases hcolour with halpha | habsent
    · exact if_neg halpha
    · rw [habsent, ite_self]
  simp only [ReductionMap.reduce, hnone, h]

/-- Settles O33: an entry's index is the transparent one or its cell's choice, and in a block the
positions that choose second are those whose threshold is below the weight, which are as many as the
weight since the thresholds of a block are 0 to 15, each once. -/
theorem reductionShowsSecondByWeight : Obligations.ReductionShowsSecondByWeight := by
  unfold Obligations.ReductionShowsSecondByWeight
  refine ⟨fun m dither e x y t halpha htransparent =>
      reduce_of_transparent halpha htransparent dither x y,
    fun m dither e x y c hcolour hcell => ?index,
    fun c t i j hsecond hne hweight => ?block⟩
  case index =>
    rw [reduce_of_cell hcolour hcell, ← ditherThreshold_eq_getD]
    cases hsecond : c.second with
    | none => exact choose_of_no_second hsecond dither x y
    | some t => exact choose_of_second hsecond dither x y
  case block =>
    rw [← List.countP_eq_length_filter]
    simp only [choose_eq_second_iff hsecond hne, ditherThreshold_aligned]
    exact countP_ditherThreshold_lt hweight

end Sys2Proof.Proofs
end

section
/-! PROOFS. The build engine's commands (chapter 6): which requests are refused (R94), the start of a
build and its end at once without candidates (R97 to R99), and the abort (R105 to R107). -/

namespace Sys2Proof.Proofs

open Sys2Proof Sys2Proof.Machine Sys2Proof.Safety

/-! ## A request is judged (R93, R94) -/

theorem dimOk_eq_false_iff (n : Nat) : dimOk n = false ↔ n < 2 ∨ 8 < n := by
  rw [dimOk, decide_eq_false_iff_not]
  omega

theorem params_valid_eq_false_iff (g : BuildRegs) : g.params.valid = false ↔
    g.last.toNat < g.first.toNat ∨ ∃ d ∈ [g.nr, g.ng, g.nb], d.toNat < 2 ∨ 8 < d.toNat := by
  have hvalid : g.params.valid = (decide (g.first.toNat ≤ g.last.toNat) && dimOk g.nr.toNat &&
      dimOk g.ng.toNat && dimOk g.nb.toNat) := rfl
  simp only [hvalid, Bool.and_eq_false_iff, decide_eq_false_iff_not, Nat.not_le, dimOk_eq_false_iff,
    or_assoc, List.mem_cons, List.not_mem_nil, or_false, exists_eq_or_imp, exists_eq_left]

theorem buildPending_iff (s : State) (m : MapId) :
    s.buildPending m = true ↔ ∃ q ∈ s.engine.requests, q.map = m := by
  simp only [State.buildPending, List.any_eq_true, beq_iff_eq]

theorem refusesBuild_iff (s : State) (g : BuildRegs) :
    s.refusesBuild g.map g.params = true ↔
      (s.map g.map).state = .building ∨ (∃ q ∈ s.engine.requests, q.map = g.map) ∨
        g.last.toNat < g.first.toNat ∨ ∃ d ∈ [g.nr, g.ng, g.nb], d.toNat < 2 ∨ 8 < d.toNat := by
  rw [← params_valid_eq_false_iff, ← buildPending_iff]
  simp only [State.refusesBuild, Bool.or_eq_true, decide_eq_true_eq, Bool.not_eq_true', or_assoc]

theorem exec_bldCmdRequest_of_refused {s : State} (hfree : s.port.stretched = false)
    (h : s.refusesBuild s.engine.regs.map s.engine.regs.params = true) :
    exec .bldCmdRequest s = .next (s.flag .buildRefused) := by
  rw [exec, execBldCmdRequest, onBus_of_free _ hfree, if_pos h]

theorem exec_bldCmdRequest_of_accepted {s : State} (hfree : s.port.stretched = false)
    (h : ¬s.refusesBuild s.engine.regs.map s.engine.regs.params = true) :
    exec .bldCmdRequest s = .next (s.addRequest
      { map := s.engine.regs.map, params := s.engine.regs.params }).lookForBuild := by
  rw [exec, execBldCmdRequest, onBus_of_free _ hfree, if_neg h]

/-- Settles O27: the refusal is the four cases of R94 (`refusesBuild_iff`), and an accepted request is
appended before the engine looks. -/
theorem buildRequestIsJudged : Obligations.BuildRequestIsJudged := by
  unfold Obligations.BuildRequestIsJudged
  rintro s g hfree rfl
  refine ⟨fun hrefused => ?refused, fun haccepted => ?accepted⟩
  case refused =>
    rw [exec_bldCmdRequest_of_refused hfree ((refusesBuild_iff s _).2 hrefused)]
    rfl
  case accepted =>
    exact ⟨_, exec_bldCmdRequest_of_accepted hfree (mt (refusesBuild_iff s _).1 haccepted), rfl⟩

/-! ## What the parts of a build's start and end change -/

theorem invalidate_port (s : State) (t : PortTarget) :
    (s.invalidate t).port = portAfterChange s.port t := by
  rw [State.invalidate_spec]
  rfl

theorem portAfterChange_twice (p : AccessPort) (t : PortTarget) :
    portAfterChange (portAfterChange p t) t = portAfterChange p t := by
  by_cases htarget : p.target = t
  · simp [portAfterChange, htarget]
  · simp [portAfterChange, htarget]

theorem wakeMap_chan_eq (s : State) (m : MapId) (c : Chan) :
    (s.wakeMap m).chan c = chanAfterBuild (s.chan c) m := State.wakeMap_chan s m c

/-- The map goes EMPTY without a valid cell, and the port is told (R79, R81). -/
theorem emptyMap_eq (s : State) (m : MapId) :
    s.emptyMap m =
      { s with maps := s.maps.set m { s.map m with state := .empty, cells := [] }
               port := portAfterChange s.port (.map m) } := by
  rw [State.emptyMap, State.invalidate_spec]
  rfl

/-- The map is BUILDING with the request's parameters, and the source bank has one hold more (R98). -/
theorem enterBuilding_eq (s : State) (r : BuildRequest) :
    s.enterBuilding r =
      { s with
        banks := s.banks.set r.params.source
          { s.bank r.params.source with holders := (s.bank r.params.source).holders + 1 }
        maps := s.maps.set r.map
          { s.map r.map with state := .building, params := r.params, cells := [] }
        port := portAfterChange s.port (.map r.map)
        engine := { s.engine with
          state := .building, current := r.map, progress := 0
          requests := s.engine.requests.filter fun q => decide (q.map ≠ r.map) } } := by
  simp only [State.enterBuilding, State.invalidate_spec]
  rfl

theorem enterBuilding_map_same (s : State) (r : BuildRequest) :
    (s.enterBuilding r).map r.map =
      { s.map r.map with state := .building, params := r.params, cells := [] } := by
  rw [enterBuilding_eq]
  exact PerMap.get_set_same _ _ _

theorem enterBuilding_bank (s : State) (r : BuildRequest) (b : BankId) :
    (s.enterBuilding r).bank b = { s.bank b with
      holders := (s.bank b).holders + if b = r.params.source then 1 else 0 } := by
  rw [enterBuilding_eq]
  refine (PerBank.get_set _ _ _ _).trans ?_
  split
  next heq => rw [heq]
  next => rfl

/-- The release of a bank without sealed records lowers its holder count alone (R17). -/
theorem releaseBank_of_none_sealed {s : State} {b : BankId} (h : s.commitOf b = .none) :
    s.releaseBank b = s.setBank b { s.bank b with holders := (s.bank b).holders - 1 } :=
  judgeBank_waits (.inl (by simp [h]))

/-- A build that ends at its start gives back the hold it took and leaves the map EMPTY, with the
engine in POST (R99). -/
theorem noCandidates_enterBuilding {s : State} {r : BuildRequest}
    (h : s.commitOf r.params.source = .none) :
    (s.enterBuilding r).noCandidates r.map =
      State.wakeMap { s with
        maps := s.maps.set r.map
          { s.map r.map with state := .empty, params := r.params, cells := [] }
        port := portAfterChange s.port (.map r.map)
        engine := { s.engine with
          state := .post (buildFault r.map .noCandidates), current := r.map, progress := 0
          requests := s.engine.requests.filter fun q => decide (q.map ≠ r.map) } } r.map := by
  have hnone : ((s.enterBuilding r).emptyMap r.map).commitOf r.params.source = .none := by
    rw [emptyMap_eq, enterBuilding_eq]
    exact h
  have hheld : ((s.enterBuilding r).emptyMap r.map).bank r.params.source =
      { s.bank r.params.source with holders := (s.bank r.params.source).holders + 1 } := by
    rw [emptyMap_eq]
    exact (enterBuilding_bank s r r.params.source).trans (by rw [if_pos rfl])
  have hback : (s.banks.set r.params.source
      { s.bank r.params.source with holders := (s.bank r.params.source).holders + 1 }).set
        r.params.source (s.bank r.params.source) = s.banks := by
    rw [PerBank.set_set]
    exact PerBank.set_get _ _
  rw [State.noCandidates, enterBuilding_map_same, releaseBank_of_none_sealed hnone, hheld,
    emptyMap_eq, enterBuilding_map_same, enterBuilding_eq]
  simp only [portAfterChange_twice, PerMap.set_set, State.setBank, Nat.add_sub_cancel, hback,
    State.enginePosts]

/-! ## The start of a build (R97 to R99) -/

theorem startable_iff (s : State) (r : BuildRequest) : s.startable r = true ↔
    (s.map r.map).holders = 0 ∧ s.commitOf r.params.source = .none := by
  simp [State.startable, State.sealedPending]

/-- The engine takes the first request of the list that can be started (R97). -/
theorem lookForBuild_starts_first {s : State} {before after : List BuildRequest} {r : BuildRequest}
    (hidle : s.engine.state = .idle) (hrequests : s.engine.requests = before ++ r :: after)
    (hr : s.startable r = true) (hbefore : ∀ q ∈ before, ¬s.startable q = true) :
    s.lookForBuild = s.startBuild r := by
  have hfirst : (s.engine.requests.find? fun q => s.startable q) = some r := by
    rw [hrequests, List.find?_append, List.find?_eq_none.2 hbefore, List.find?_cons_of_pos hr]
    rfl
  simp only [State.lookForBuild, hidle, hfirst]

/-- No two requests are for one map, so only the started one leaves the list (R94, R98). -/
theorem filter_other_maps {before after : List BuildRequest} {r : BuildRequest}
    (h : ((before ++ r :: after).map fun q => q.map).Nodup) :
    ((before ++ r :: after).filter fun q => decide (q.map ≠ r.map)) = before ++ after := by
  rw [List.map_append, List.map_cons, List.nodup_middle, List.nodup_cons, ← List.map_append] at h
  obtain ⟨hnotmem, -⟩ := h
  have hothers : ∀ q ∈ before ++ after, decide (q.map ≠ r.map) = true := fun q hq =>
    decide_eq_true fun heq => hnotmem (List.mem_map.2 ⟨q, hq, heq⟩)
  rw [List.filter_append, List.filter_cons_of_neg (by simp), ← List.filter_append,
    List.filter_eq_self.2 hothers]

theorem startBuild_eq (s : State) (r : BuildRequest) :
    s.startBuild r = if r.params.eligible (s.bank r.params.source).entries = []
      then (s.enterBuilding r).noCandidates r.map else s.enterBuilding r := by
  have hentries : ((s.enterBuilding r).bank r.params.source).entries =
      (s.bank r.params.source).entries := by
    rw [enterBuilding_bank]
  rw [State.startBuild, hentries]

/-- Settles O28: the engine takes the first startable request (`lookForBuild_starts_first`), and its
build begins (`enterBuilding_eq`) or ends in the same event (`noCandidates_enterBuilding`). -/
theorem buildStartTakesTheOldestStartableRequest :
    Obligations.BuildStartTakesTheOldestStartableRequest := by
  unfold Obligations.BuildStartTakesTheOldestStartableRequest
  intro s before after r hidle hrequests hnodup hholders hnone hbefore
  have hlook : s.lookForBuild = s.startBuild r :=
    lookForBuild_starts_first hidle hrequests ((startable_iff s r).2 ⟨hholders, hnone⟩)
      fun q hq hstart => by
        obtain ⟨hfree, hclear⟩ := (startable_iff s q).1 hstart
        exact (hbefore q hq).elim (· hfree) (· hclear)
  have hleft : (s.engine.requests.filter fun q => decide (q.map ≠ r.map)) = before ++ after := by
    rw [hrequests] at hnodup ⊢
    exact filter_other_maps hnodup
  refine ⟨s.startBuild r, by rw [exec, execBuildStart, hlook], ?_⟩
  by_cases hempty : r.params.eligible (s.bank r.params.source).entries = []
  case neg =>
    have hbank := enterBuilding_bank s r
    rw [startBuild_eq, if_neg hempty]
    rw [enterBuilding_eq, hleft] at hbank ⊢
    exact ⟨rfl, fun m hne => PerMap.get_set_other _ _ _ _ hne, rfl,
      fun _ => ⟨rfl, PerMap.get_set_same _ _ _, hbank, rfl⟩, fun h => absurd h hempty⟩
  case pos =>
    rw [startBuild_eq, if_pos hempty, noCandidates_enterBuilding hnone, hleft]
    exact ⟨rfl, fun m hne => PerMap.get_set_other _ _ _ _ hne, rfl, fun h => absurd hempty h,
      fun _ => ⟨rfl, PerMap.get_set_same _ _ _, fun b => rfl, fun c => wakeMap_chan_eq _ _ c⟩⟩

/-! ## The abort (R105 to R107) -/

theorem exec_bldCmdAbort_of_building {m : MapId} {s : State} (hfree : s.port.stretched = false)
    (h : (s.map m).state = .building) : exec (.bldCmdAbort m) s = .next (s.abortBuild m) := by
  rw [exec, execBldCmdAbort, onBus_of_free _ hfree, if_pos h]

theorem exec_bldCmdAbort_of_pending {m : MapId} {s : State} (hfree : s.port.stretched = false)
    (h : (s.map m).state ≠ .building) (hpending : s.buildPending m = true)
    (hslot : s.engine.abortSlot = none) :
    exec (.bldCmdAbort m) s =
      .next (((s.dropRequest m).slotRecord (buildFault m .aborted)).wakeMap m) := by
  rw [exec, execBldCmdAbort, onBus_of_free _ hfree, if_neg h, if_pos ⟨hpending, hslot⟩]

theorem exec_bldCmdAbort_of_ignored {m : MapId} {s : State} (hfree : s.port.stretched = false)
    (h : (s.map m).state ≠ .building)
    (hnone : s.buildPending m = false ∨ s.engine.abortSlot ≠ none) :
    exec (.bldCmdAbort m) s = .next (s.flag .cmdIgnored) := by
  have hkept : ¬(s.buildPending m = true ∧ s.engine.abortSlot = none) := by
    rwa [not_and_or, Bool.not_eq_true]
  rw [exec, execBldCmdAbort, onBus_of_free _ hfree, if_neg h, if_neg hkept]

/-- The record of the abort is inserted if there is room for an URGENT one, and otherwise takes the
empty slot (R106, R164). -/
theorem slotRecord_of_empty_slot {s : State} (hslot : s.engine.abortSlot = none) (m : MapId)
    (f : FaultCode) :
    s.slotRecord (buildFault m f) =
      { s with
        eq := if s.eq.urgent.length + s.eq.routine.length < 32
          then s.eq.insert (buildFault m f) else s.eq
        engine := { s.engine with
          abortSlot := if s.eq.urgent.length + s.eq.routine.length < 32
            then none else some (buildFault m f) } } := by
  have hroom : s.eq.hasRoom (buildFault m f).cls = true ↔
      s.eq.urgent.length + s.eq.routine.length < 32 := decide_eq_true_iff
  rw [State.slotRecord]
  simp only [hroom]
  split
  case isTrue hfits =>
    rw [← hslot]
    rfl
  case isFalse hfull => rfl

/-- Settles O31: an abort empties the building map before the bank's release (`emptyMap_eq`), or drops
the request and inserts or keeps its record as the queue's room decides. -/
theorem abortStopsTheBuildOrRemovesTheRequest :
    Obligations.AbortStopsTheBuildOrRemovesTheRequest := by
  unfold Obligations.AbortStopsTheBuildOrRemovesTheRequest
  intro m s r hfree hr
  change r = buildFault m .aborted at hr
  subst hr
  refine ⟨fun hbuilding => ?running, fun hnot hpending hslot => ?pending,
    fun hnot hnone => exec_bldCmdAbort_of_ignored hfree hnot hnone⟩
  case running =>
    refine ⟨((s.emptyMap m).enginePosts (buildFault m .aborted)).wakeMap m,
      exec_bldCmdAbort_of_building hfree hbuilding, ?_⟩
    rw [emptyMap_eq]
    exact ⟨rfl, PerMap.get_set_same _ _ _, fun m' hne => PerMap.get_set_other _ _ _ _ hne,
      fun c => wakeMap_chan_eq _ m c⟩
  case pending =>
    refine ⟨_, exec_bldCmdAbort_of_pending hfree hnot hpending hslot, ?_⟩
    rw [slotRecord_of_empty_slot (s := s.dropRequest m) hslot]
    exact ⟨rfl, fun c => wakeMap_chan_eq _ m c⟩

end Sys2Proof.Proofs
end

section
/-! PROOFS. The channels' context registers and jobs (chapter 7): a context write as a masked word
(R111, R112), the judging of JOB_PUSH (R114, R117), a segment's start with its holds (Table 7-4,
R119), and the channel commands by state (R129, R130, R134). -/

namespace Sys2Proof.Proofs

open Sys2Proof Sys2Proof.Machine

/-! ## A word masked to its fields (Table 11-9) -/

/-- The bits of a bus word that the field of `w` bits at bit `lo` takes up. -/
def fieldMask (lo w : Nat) : Word := putAt (fieldAt (BitVec.allOnes 32) lo w) lo

/-- A field put back at its own place is the word masked to the field. -/
theorem putAt_fieldAt_eq_and (v : Word) (lo w : Nat) :
    putAt (fieldAt v lo w) lo = v &&& fieldMask lo w := by
  ext i hi
  rw [BitVec.getElem_and, fieldMask, getElem_putAt_fieldAt, getElem_putAt_fieldAt,
    BitVec.getElem_allOnes, Bool.and_true, Bool.and_comm]

theorem putBit_bitAt_eq_and (v : Word) (i : Nat) : putBit (bitAt v i) i = v &&& fieldMask i 1 := by
  rw [putBit_bitAt, putAt_fieldAt_eq_and]

/-! ## The codes of a context's fields (Table 11-9) -/

theorem formatOfCode_eq_none_iff : ∀ x : BitVec 3, Format.ofCode x = none ↔ 4 < x.toNat := by decide

theorem code_of_formatOfCode : ∀ x : BitVec 3, ∀ f ∈ Format.ofCode x, f.code = x := by decide

@[simp] theorem componentCode_ofCode : ∀ x : BitVec 2, (Component.ofCode x).code = x := by decide

theorem putAt_mapCode_ofFlag (b : Bool) (i : Nat) : putAt (MapId.ofFlag b).code i = putBit b i := by
  cases b <;> rfl

/-! ## The register a context write replaces (R111, R112) -/

/-- The bits of a context register that hold its fields (Table 11-9). -/
def ctxMask : CtxReg → Word
  | .fmt => 0x00031377 | .keyLo => 0xFFFFFFFF | .keyHi => 0xFFFFFFFF | .edge => 0x00FF010F
  | .lanes => 0x000000FF | .seg => 0x00FFFFFF

/-- The context with CTX_FMT replaced: two named formats and the word's other fields (R112). -/
def withFmt (x : Context) (src dst : Format) (v : Word) : Context :=
  { x with
    src := src, dst := dst, bank := BankId.ofCode (fieldAt v 8 2), map := MapId.ofFlag (bitAt v 12)
    acceptStale := bitAt v 16, dither := bitAt v 17 }

/-- A written CTX_FMT whose codes name two formats replaces that register's fields. -/
theorem withReg_fmt {v : Word} {src dst : Format} (hsrc : Format.ofCode (fieldAt v 0 3) = some src)
    (hdst : Format.ofCode (fieldAt v 4 3) = some dst) (x : Context) :
    x.withReg .fmt v = some (withFmt x src dst v) := by
  simp only [Context.withReg, hsrc, hdst, withFmt]

theorem withReg_fmt_eq_none_iff (x : Context) (v : Word) : x.withReg .fmt v = none ↔
    Format.ofCode (fieldAt v 0 3) = none ∨ Format.ofCode (fieldAt v 4 3) = none := by
  cases hsrc : Format.ofCode (fieldAt v 0 3) with
  | none => simp [Context.withReg, hsrc]
  | some src =>
    cases hdst : Format.ofCode (fieldAt v 4 3) with
    | none => simp [Context.withReg, hsrc, hdst]
    | some dst => simp [withReg_fmt hsrc hdst]

/-- Only CTX_FMT has codes that are undefined (R112). -/
theorem withReg_eq_none_iff (x : Context) (r : CtxReg) (v : Word) : x.withReg r v = none ↔
    r = .fmt ∧ (4 < v.toNat % 8 ∨ 4 < v.toNat / 16 % 8) := by
  cases r with
  | fmt =>
    rw [withReg_fmt_eq_none_iff, formatOfCode_eq_none_iff, formatOfCode_eq_none_iff, fieldAt_toNat,
      fieldAt_toNat, pow_zero, Nat.div_one]
    exact (and_iff_right rfl).symm
  | keyLo | keyHi | edge | lanes | seg => simp [Context.withReg]

/-- An accepted CTX_FMT write names two formats, the ones of its codes. -/
theorem withReg_fmt_some {x y : Context} {v : Word} (h : x.withReg .fmt v = some y) :
    ∃ src dst, src.code = fieldAt v 0 3 ∧ dst.code = fieldAt v 4 3 ∧ y = withFmt x src dst v := by
  have hdefined : ¬x.withReg .fmt v = none := by simp [h]
  rw [withReg_fmt_eq_none_iff, not_or, ← ne_eq, ← ne_eq, Option.ne_none_iff_exists',
    Option.ne_none_iff_exists'] at hdefined
  obtain ⟨⟨src, hsrc⟩, dst, hdst⟩ := hdefined
  rw [withReg_fmt hsrc hdst] at h
  exact ⟨src, dst, code_of_formatOfCode _ _ hsrc, code_of_formatOfCode _ _ hdst,
    (Option.some.inj h).symm⟩

/-- The written register reads as the written word, masked to its fields (R112). -/
theorem regWord_withReg_same {x y : Context} {r : CtxReg} {v : Word} (h : x.withReg r v = some y) :
    y.regWord r = v &&& ctxMask r := by
  cases r with
  | fmt =>
    obtain ⟨src, dst, hsrc, hdst, rfl⟩ := withReg_fmt_some h
    simp only [Context.regWord, withFmt, hsrc, hdst, code_ofCode, putAt_mapCode_ofFlag,
      putAt_fieldAt_eq_and, putBit_bitAt_eq_and, ← BitVec.and_or_distrib_left]
    rfl
  | keyLo | keyHi =>
    obtain rfl := Option.some.inj h
    exact (toWord_ofWord v).trans BitVec.and_allOnes.symm
  | edge | lanes | seg =>
    obtain rfl := Option.some.inj h
    simp only [Context.regWord, componentCode_ofCode, putAt_fieldAt_eq_and, putBit_bitAt_eq_and,
      ← BitVec.and_or_distrib_left]
    rfl

/-- A context write leaves the other five registers, which have none of its fields (R112). -/
theorem regWord_withReg_other {x y : Context} {r q : CtxReg} {v : Word} (h : x.withReg r v = some y)
    (hne : q ≠ r) : y.regWord q = x.regWord q := by
  cases r with
  | fmt =>
    obtain ⟨src, dst, -, -, rfl⟩ := withReg_fmt_some h
    cases q <;> trivial
  | keyLo | keyHi | edge | lanes | seg =>
    obtain rfl := Option.some.inj h
    cases q <;> trivial

/-! ## A context write is judged (R112) -/

/-- A job is current in every state but IDLE and HALTED (R116). -/
theorem hasJob_iff (w : ChanState) : w.hasJob = true ↔ w ≠ .idle ∧ w ≠ .halted := by
  cases w <;> simp [ChanState.hasJob]

theorem exec_ctxWrite_of_job {c : Chan} {s : State} (hfree : s.port.stretched = false)
    (hjob : (s.chan c).state.hasJob = true) (r : CtxReg) (v : Word) :
    exec (.ctxWrite c r v) s = .next (s.flag .settingRefused) := by
  rw [exec, execCtxWrite, onBus_of_free _ hfree, if_pos hjob]

theorem exec_ctxWrite_of_undefined {c : Chan} {s : State} {r : CtxReg} {v : Word}
    (hfree : s.port.stretched = false) (hnone : (s.chan c).ctx.withReg r v = none) :
    exec (.ctxWrite c r v) s = .next (s.flag .settingRefused) := by
  rw [exec, execCtxWrite, onBus_of_free _ hfree, hnone, ite_self]

theorem exec_ctxWrite_of_accepted {c : Chan} {s : State} {r : CtxReg} {v : Word} {y : Context}
    (hfree : s.port.stretched = false) (hjob : ¬(s.chan c).state.hasJob = true)
    (hsome : (s.chan c).ctx.withReg r v = some y) :
    exec (.ctxWrite c r v) s = .next (s.setChan c { s.chan c with ctx := y }) := by
  rw [exec, execCtxWrite, onBus_of_free _ hfree, if_neg hjob, hsome]

/-- Settles O34: the refusals are a current job and `withReg_eq_none_iff`; an accepted write gives the
masked word in its own register (`regWord_withReg_same`) and leaves the others. -/
theorem contextWriteIsJudged : Obligations.ContextWriteIsJudged := by
  unfold Obligations.ContextWriteIsJudged
  intro c r v s hfree
  refine ⟨fun hbad => ?refused, fun hstate hdefined => ?accepted⟩
  case refused =>
    rcases hbad with hjob | hundefined
    · exact exec_ctxWrite_of_job hfree ((hasJob_iff _).2 hjob) r v
    · exact exec_ctxWrite_of_undefined hfree ((withReg_eq_none_iff _ r v).2 hundefined)
  case accepted =>
    have hnojob : ¬(s.chan c).state.hasJob = true := by
      rwa [hasJob_iff, ← not_or, not_not]
    rw [← withReg_eq_none_iff (s.chan c).ctx, ← ne_eq, Option.ne_none_iff_exists'] at hdefined
    obtain ⟨y, hsome⟩ := hdefined
    refine ⟨y, exec_ctxWrite_of_accepted hfree hnojob hsome, ?_,
      fun q hne => regWord_withReg_other hsome hne⟩
    rw [regWord_withReg_same hsome]
    cases r <;> rfl

/-! ## The current job (R117) -/

theorem nextJob_of_nil {x : Channel} (h : x.jobs = []) : x.nextJob = { x with state := .idle } := by
  rw [Channel.nextJob, h]

theorem nextJob_of_cons {x : Channel} {j : Job} {rest : List Job} (h : x.jobs = j :: rest) :
    x.nextJob = { x with state := .wait .start, segment := 0, tag := j.tag, stall := 0
                         path := PixelPath.fresh } := by
  rw [Channel.nextJob, h]

/-! ## JOB_PUSH is judged (R114) -/

/-- The descriptor of a written word, by the numbers of its fields (Table 11-6). -/
theorem jobOf_eq (count : BitVec 20) (width : BitVec 13) (v : Word) :
    jobOf count width v =
      { count := count.toNat, width := width.toNat, tag := BitVec.ofNat 8 v.toNat
        urgent := decide (v.toNat / 256 % 2 = 1), segNotify := decide (v.toNat / 512 % 2 = 1) } := by
  rw [jobOf, fieldAt_eq_ofNat, bitAt_eq_decide, bitAt_eq_decide, pow_zero, Nat.div_one]
  rfl

/-- The three cases in which R114 refuses a push. -/
theorem push_refused_iff (j : Job) (l : List Job) :
    ¬(j.valid = true ∧ l.length < Config.maxJobs) ↔
      j.count = 0 ∨ j.width = 0 ∨ 4096 < j.width ∨ 8 ≤ l.length := by
  simp only [Job.valid, Bool.and_eq_true, decide_eq_true_eq]
  rw [Config.maxWidth, Config.maxJobs]
  omega

theorem push_of_not_idle {x : Channel} (h : x.state ≠ .idle) (j : Job) :
    x.push j = { x with jobs := x.jobs ++ [j] } := if_neg h

/-- On an IDLE channel without descriptors the pushed one is current in the same event (R117). -/
theorem push_of_idle {x : Channel} (h : x.state = .idle) (hnil : x.jobs = []) (j : Job) :
    x.push j = { x with jobs := [j], state := .wait .start, segment := 0, tag := j.tag, stall := 0
                        path := PixelPath.fresh } := by
  rw [Channel.push, if_pos h, nextJob_of_cons (j := j) (rest := []) (by simp [hnil]), hnil,
    List.nil_append]

theorem exec_jobPush_of_refused {c : Chan} {v : Word} {s : State} {j : Job}
    (hfree : s.port.stretched = false) (hj : j = jobOf (s.chan c).jobCount (s.chan c).jobWidth v)
    (h : ¬(j.valid = true ∧ (s.chan c).jobs.length < Config.maxJobs)) :
    exec (.jobPush c v) s = .next (s.flag .jobRefused) := by
  subst hj
  rw [exec, execJobPush, onBus_of_free _ hfree, if_neg h]

theorem exec_jobPush_of_accepted {c : Chan} {v : Word} {s : State} {j : Job}
    (hfree : s.port.stretched = false) (hj : j = jobOf (s.chan c).jobCount (s.chan c).jobWidth v)
    (h : j.valid = true ∧ (s.chan c).jobs.length < Config.maxJobs) :
    exec (.jobPush c v) s = .next (s.setChan c ((s.chan c).push j)) := by
  subst hj
  rw [exec, execJobPush, onBus_of_free _ hfree, if_pos h]

/-- Settles O35: the written descriptor is `jobOf_eq`, its refusal `push_refused_iff`, and an accepted
one joins the queue as `push_of_not_idle` and `push_of_idle` say. -/
theorem jobPushIsJudged : Obligations.JobPushIsJudged := by
  unfold Obligations.JobPushIsJudged
  rintro c v s x j hfree rfl hj
  rw [← jobOf_eq] at hj
  rw [← push_refused_iff]
  refine ⟨fun hrefused => exec_jobPush_of_refused hfree hj hrefused, fun haccepted => ?accepted⟩
  case accepted =>
    rw [exec_jobPush_of_accepted hfree hj (not_not.1 haccepted)]
    exact ⟨fun hbusy => by rw [push_of_not_idle hbusy],
      fun hidle hnil => by rw [push_of_idle hidle hnil, PixelPath.fresh]⟩

/-! ## Holds taken and released (R15, R84, R119) -/

theorem holdBank_bank (s : State) (k b : BankId) : (s.holdBank k).bank b =
    { s.bank b with holders := (s.bank b).holders + if b = k then 1 else 0 } := by
  rw [State.holdBank, State.bank_setBank]
  split
  next heq => rw [heq]
  next => rfl

theorem holdMap_map (s : State) (k m : MapId) : (s.holdMap k).map m =
    { s.map m with holders := (s.map m).holders + if m = k then 1 else 0 } := by
  rw [State.holdMap, State.map_setMap]
  split
  next heq => rw [heq]
  next => rfl

theorem releaseMap_map (s : State) (k m : MapId) : (s.releaseMap k).map m =
    { s.map m with holders := (s.map m).holders - if m = k then 1 else 0 } := by
  rw [State.releaseMap, State.map_setMap]
  split
  next heq => rw [heq]
  next => rfl

theorem takeHolds_chan (s : State) (x : Context) (c : Chan) :
    (s.takeHolds x).chan c = s.chan c := by
  rw [State.takeHolds_spec]
  rfl

/-- Taking a segment's holds adds one to its I8 source's bank (R15). -/
theorem takeHolds_bank (s : State) (x : Context) (b : BankId) : (s.takeHolds x).bank b =
    { s.bank b with
      holders := (s.bank b).holders + if x.src = .i8 ∧ b = x.bank then 1 else 0 } := by
  have hmap : (s.takeHolds x).bank b = (if x.src = .i8 then s.holdBank x.bank else s).bank b := by
    rw [State.takeHolds]
    split <;> rfl
  rw [hmap]
  by_cases hsrc : x.src = .i8
  · simp only [hsrc, if_true, true_and, holdBank_bank]
  · simp only [hsrc, if_false, false_and, Nat.add_zero]

/-- Taking a segment's holds adds one to its I8 destination's map (R84). -/
theorem takeHolds_map (s : State) (x : Context) (m : MapId) : (s.takeHolds x).map m =
    { s.map m with
      holders := (s.map m).holders + if x.dst = .i8 ∧ m = x.map then 1 else 0 } := by
  have hbank : (if x.src = .i8 then s.holdBank x.bank else s).map m = s.map m := by split <;> rfl
  rw [State.takeHolds]
  by_cases hdst : x.dst = .i8
  · simp only [hdst, if_true, true_and, holdMap_map, hbank]
  · simp only [hdst, if_false, false_and, Nat.add_zero, hbank]

/-- Releasing a segment's holds takes one from its I8 destination's map, then releases its I8 source's
bank (R84, R17). -/
theorem releaseHolds_eq (s : State) (x : Context) : ∃ w : State, w = { s with maps := w.maps } ∧
    (∀ m, w.map m = { s.map m with
      holders := (s.map m).holders - if x.dst = .i8 ∧ m = x.map then 1 else 0 }) ∧
    s.releaseHolds x = if x.src = .i8 then w.releaseBank x.bank else w := by
  refine ⟨if x.dst = .i8 then s.releaseMap x.map else s, by split <;> rfl, fun m => ?_, rfl⟩
  by_cases hdst : x.dst = .i8
  · simp only [hdst, if_true, true_and, releaseMap_map]
  · simp only [hdst, if_false, false_and, Nat.sub_zero]

/-! ## A segment's start (Table 7-4, R119) -/

theorem bankHoldsBack_iff (s : State) (x : Context) :
    s.bankHoldsBack x = true ↔ x.src = .i8 ∧ s.sealedPending x.bank = true := by
  rw [State.bankHoldsBack, Bool.and_eq_true, decide_eq_true_iff]

theorem mapHoldsBack_iff (s : State) (x : Context) : s.mapHoldsBack x = true ↔
    x.dst = .i8 ∧ ((s.map x.map).state = .building ∨ s.buildPending x.map = true) := by
  rw [State.mapHoldsBack, Bool.and_eq_true, Bool.or_eq_true, decide_eq_true_iff, decide_eq_true_iff]

theorem mapUnusable_iff (s : State) (x : Context) : s.mapUnusable x = true ↔
    x.dst = .i8 ∧ ((s.map x.map).state = .empty ∨
      (s.map x.map).state = .stale ∧ x.acceptStale = false) := by
  rw [State.mapUnusable, decide_eq_true_iff]

theorem exec_segmentStartAttempt_of_due {c : Chan} {s : State}
    (hdue : (s.chan c).state = .wait .start) :
    exec (.segmentStartAttempt c) s = .next (s.attemptSegment c) := by
  rw [exec, execSegmentStartAttempt, if_pos hdue]

theorem attemptSegment_of_bankHoldsBack {c : Chan} {s : State}
    (hbank : s.bankHoldsBack (s.chan c).ctx = true) :
    s.attemptSegment c = s.setChan c { s.chan c with state := .wait .bankCommit } := by
  rw [State.attemptSegment, if_pos hbank]

theorem attemptSegment_of_mapHoldsBack {c : Chan} {s : State}
    (hbank : ¬s.bankHoldsBack (s.chan c).ctx = true)
    (hmap : s.mapHoldsBack (s.chan c).ctx = true) :
    s.attemptSegment c = s.setChan c { s.chan c with state := .wait .mapBusy } := by
  rw [State.attemptSegment, if_neg hbank, if_pos hmap]

theorem attemptSegment_of_mapUnusable {c : Chan} {s : State}
    (hbank : ¬s.bankHoldsBack (s.chan c).ctx = true)
    (hmap : ¬s.mapHoldsBack (s.chan c).ctx = true)
    (hunusable : s.mapUnusable (s.chan c).ctx = true) :
    s.attemptSegment c = s.faultJob c .mapUnusable := by
  rw [State.attemptSegment, if_neg hbank, if_neg hmap, if_pos hunusable]

theorem attemptSegment_of_startable {c : Chan} {s : State}
    (hbank : ¬s.bankHoldsBack (s.chan c).ctx = true)
    (hmap : ¬s.mapHoldsBack (s.chan c).ctx = true)
    (husable : ¬s.mapUnusable (s.chan c).ctx = true) :
    s.attemptSegment c =
      (s.setChan c { s.chan c with state := .run, stall := 0 }).takeHolds (s.chan c).ctx := by
  rw [State.attemptSegment, if_neg hbank, if_neg hmap, if_neg husable]

/-- Settles O36: each row of Table 7-4 is a branch of `attemptSegment`, and in the last one the holds
taken are those of `takeHolds_bank` and `takeHolds_map`. -/
theorem segmentStartFollowsTheTable : Obligations.SegmentStartFollowsTheTable := by
  unfold Obligations.SegmentStartFollowsTheTable
  rintro c s x rfl hdue
  rw [exec_segmentStartAttempt_of_due hdue, ← bankHoldsBack_iff, ← mapHoldsBack_iff,
    ← mapUnusable_iff]
  refine ⟨fun hsrc hsealed => ?bankRow, fun hbank => ⟨fun hdst hbusy => ?mapRow, fun hmap =>
    ⟨fun hdst hbad => ?faultRow, fun husable => ?runRow⟩⟩⟩
  case bankRow => rw [attemptSegment_of_bankHoldsBack ((bankHoldsBack_iff s _).2 ⟨hsrc, hsealed⟩)]
  case mapRow => rw [attemptSegment_of_mapHoldsBack hbank ((mapHoldsBack_iff s _).2 ⟨hdst, hbusy⟩)]
  case faultRow =>
    rw [attemptSegment_of_mapUnusable hbank hmap ((mapUnusable_iff s _).2 ⟨hdst, hbad⟩)]
  case runRow =>
    refine ⟨_, rfl, ?_⟩
    rw [attemptSegment_of_startable hbank hmap husable]
    refine ⟨by rw [State.takeHolds_spec]; rfl, ?_, fun d hne => ?_, takeHolds_bank _ _,
      takeHolds_map _ _⟩
    · rw [takeHolds_chan, State.chan_setChan_same]
    · rw [takeHolds_chan, State.chan_setChan, if_neg hne]

/-! ## The channel commands (R129, R130, R134) -/

theorem working_iff (w : ChanState) : w.working = true ↔ (∃ r, w = .wait r) ∨ w = .run := by
  cases w <;> simp [ChanState.working]

theorem exec_chCmdAbort_of_working {c : Chan} {s : State} (hfree : s.port.stretched = false)
    (h : (s.chan c).state.working = true) :
    exec (.chCmdAbort c) s = .next (s.faultJob c .aborted).lookForBuild := by
  rw [exec, execChCmdAbort, onBus_of_free _ hfree, if_pos h]

theorem exec_chCmdAbort_of_not_working {c : Chan} {s : State} (hfree : s.port.stretched = false)
    (h : ¬(s.chan c).state.working = true) :
    exec (.chCmdAbort c) s = .next (s.flag .cmdIgnored) := by
  rw [exec, execChCmdAbort, onBus_of_free _ hfree, if_neg h]

theorem exec_chCmdResume_of_halted {c : Chan} {s : State} (hfree : s.port.stretched = false)
    (h : (s.chan c).state = .halted) :
    exec (.chCmdResume c) s = .next (s.setChan c (s.chan c).nextJob) := by
  rw [exec, execChCmdResume, onBus_of_free _ hfree, if_pos h]

theorem exec_chCmdResume_of_not_halted {c : Chan} {s : State} (hfree : s.port.stretched = false)
    (h : (s.chan c).state ≠ .halted) :
    exec (.chCmdResume c) s = .next (s.flag .cmdIgnored) := by
  rw [exec, execChCmdResume, onBus_of_free _ hfree, if_neg h]

theorem exec_chCmdReset_of_run {c : Chan} {s : State} (hfree : s.port.stretched = false)
    (h : (s.chan c).state = .run) :
    exec (.chCmdReset c) s = .next
      ((s.setChan c (s.chan c).chanReset).releaseHolds (s.chan c).ctx).lookForBuild := by
  rw [exec, execChCmdReset, onBus_of_free _ hfree, if_pos h]

theorem exec_chCmdReset_of_not_run {c : Chan} {s : State} (hfree : s.port.stretched = false)
    (h : (s.chan c).state ≠ .run) :
    exec (.chCmdReset c) s = .next (s.setChan c (s.chan c).chanReset) := by
  rw [exec, execChCmdReset, onBus_of_free _ hfree, if_neg h]

/-- Settles O40: the holds a reset releases are `releaseHolds_eq`, and each command is judged by the
channel's state alone; RESUME makes a queued descriptor current (`nextJob_of_cons`). -/
theorem channelCommandsByState : Obligations.ChannelCommandsByState := by
  unfold Obligations.ChannelCommandsByState
  refine ⟨releaseHolds_eq, ?_⟩
  rintro c s x hfree rfl
  refine ⟨fun hworking => exec_chCmdAbort_of_working hfree ((working_iff _).2 hworking),
    fun hwait hrun => exec_chCmdAbort_of_not_working hfree ?ignored,
    fun hhalted hnil => ?noDescriptor, fun j rest hhalted hcons => ?descriptor,
    fun hnot => exec_chCmdResume_of_not_halted hfree hnot, fun u hu => ?reset⟩
  case ignored =>
    rw [working_iff, not_or, not_exists]
    exact ⟨hwait, hrun⟩
  case noDescriptor => rw [exec_chCmdResume_of_halted hfree hhalted, nextJob_of_nil hnil]
  case descriptor =>
    rw [exec_chCmdResume_of_halted hfree hhalted, nextJob_of_cons hcons, PixelPath.fresh]
  case reset =>
    change u = s.setChan c (s.chan c).chanReset at hu
    subst hu
    exact ⟨exec_chCmdReset_of_not_run hfree, exec_chCmdReset_of_run hfree⟩

end Sys2Proof.Proofs
end

section
/-! PROOFS. The edge step as a stream (chapter 8): what one step releases and holds (R145, R146), and
the run over a job against R144. -/

namespace Sys2Proof.Proofs

open Sys2Proof Sys2Proof.Machine Sys2Proof.Safety

/-! ## One pixel of the edge step, case by case (R145) -/

theorem endsRow_iff (w n k : Nat) : endsRow w n k = true ↔ k % w = w - 1 ∨ k + 1 = n :=
  decide_eq_true_iff

theorem mod_succ_of_mod_eq_pred {w k : Nat} (hw : 1 ≤ w) (h : k % w = w - 1) : (k + 1) % w = 0 := by
  rw [← Nat.mod_add_mod, h, Nat.sub_add_cancel hw, Nat.mod_self]

theorem edge_of_off {x : Context} (w n k : Nat) (e : Entry) (held : Option HeldPixel)
    (hoff : x.edgeEn = false) : x.edge w n k e held = ([{ number := k, entry := e }], none) := by
  simp [Context.edge, hoff]

/-- The pixel held before a step, as it leaves the edge step when the next pixel's entry is `e`. -/
def releaseHeld (x : Context) (e : Entry) (held : Option HeldPixel) : List Released :=
  (held.map fun h =>
    { number := h.number,
      entry := x.edgeStep h.entry h.leftTransparent (decide (e.a = 0)) }).toList

theorem edge_of_endsRow {x : Context} {w n k : Nat} (e : Entry) (held : Option HeldPixel)
    (hon : x.edgeEn = true) (hend : endsRow w n k = true) :
    x.edge w n k e held =
      (releaseHeld x e held ++
        [{ number := k, entry := x.edgeStep e (leftIsClear w k held) false }], none) := by
  cases held <;> simp [Context.edge, releaseHeld, hon, hend]

theorem edge_of_not_endsRow {x : Context} {w n k : Nat} (e : Entry) (held : Option HeldPixel)
    (hon : x.edgeEn = true) (hend : endsRow w n k = false) :
    x.edge w n k e held =
      (releaseHeld x e held,
        some { number := k, entry := e, leftTransparent := leftIsClear w k held }) := by
  cases held <;> simp [Context.edge, releaseHeld, hon, hend]

/-! ## R144, by the two neighbours of a pixel -/

/-- Pixel `k` has a left neighbour in its row, which left the key step with alpha 0. -/
def leftClear (w : Nat) (f : Nat → Entry) (k : Nat) : Bool :=
  decide (k % w ≠ 0 ∧ (f (k - 1)).a = 0)

theorem leftClear_of_rowStart {w k : Nat} (f : Nat → Entry) (h : k % w = 0) :
    leftClear w f k = false := by
  simp [leftClear, h]

/-- With edge off R144 leaves every pixel as it is. -/
theorem edgeRule_of_off {x : Context} (w n : Nat) (f : Nat → Entry) (k : Nat)
    (hoff : x.edgeEn = false) : edgeRule x w n f k = f k := by
  simp [edgeRule, hoff]

/-- A pixel that ends its row or the job is judged with no right neighbour. -/
theorem edgeRule_of_endsRow {x : Context} {w n k : Nat} (f : Nat → Entry) (hon : x.edgeEn = true)
    (hend : endsRow w n k = true) :
    edgeRule x w n f k = x.edgeStep (f k) (leftClear w f k) false := by
  have hright : ¬(k % w ≠ w - 1 ∧ k + 1 < n ∧ (f (k + 1)).a = 0) := by
    rintro ⟨hrow, hjob, -⟩
    rcases (endsRow_iff w n k).1 hend with h | h <;> omega
  simp only [edgeRule, Context.edgeStep, leftClear, hon, hright, true_and, or_false, Bool.or_false,
    decide_eq_true_eq]

/-- Any other pixel of the job has the next pixel as its right neighbour. -/
theorem edgeRule_of_not_endsRow {x : Context} {w n k : Nat} (f : Nat → Entry)
    (hon : x.edgeEn = true) (hend : endsRow w n k = false) (hk : k < n) :
    edgeRule x w n f k =
      x.edgeStep (f k) (leftClear w f k) (decide ((f (k + 1)).a = 0)) := by
  obtain ⟨hrow, hlast⟩ := not_or.1 (decide_eq_false_iff_not.1 hend)
  have hjob : k + 1 < n := by omega
  simp only [edgeRule, Context.edgeStep, leftClear, hon, hjob, ne_eq, hrow, not_false_eq_true,
    true_and, Bool.or_eq_true, decide_eq_true_eq]

/-! ## The stream after its first pixels -/

/-- Pixel `k` as R144 has it leave the edge step. -/
def ruled (x : Context) (w n : Nat) (f : Nat → Entry) (k : Nat) : Released :=
  { number := k, entry := edgeRule x w n f k }

/-- The pixel held after the steps of the first `k` pixels: the last of them, under edge on, unless it
ends its row or the job (R146). -/
def heldAfter (x : Context) (w n : Nat) (f : Nat → Entry) : Nat → Option HeldPixel
  | 0 => none
  | k + 1 =>
    if x.edgeEn = true ∧ endsRow w n k = false then
      some { number := k, entry := f k, leftTransparent := leftClear w f k }
    else none

/-- What the pixel held after the steps of the first `k` pixels still owes the output. -/
def pending (x : Context) (w n : Nat) (f : Nat → Entry) (k : Nat) : List Released :=
  ((heldAfter x w n f k).map fun h => ruled x w n f h.number).toList

section
variable {x : Context} {w n k : Nat} {f : Nat → Entry}

theorem heldAfter_of_off (k : Nat) (hoff : x.edgeEn = false) : heldAfter x w n f k = none := by
  cases k <;> simp [heldAfter, hoff]

theorem heldAfter_succ_of_endsRow (hend : endsRow w n k = true) :
    heldAfter x w n f (k + 1) = none := by
  simp [heldAfter, hend]

theorem heldAfter_succ_of_not_endsRow (hon : x.edgeEn = true) (hend : endsRow w n k = false) :
    heldAfter x w n f (k + 1) =
      some { number := k, entry := f k, leftTransparent := leftClear w f k } :=
  if_pos ⟨hon, hend⟩

/-- The held pixel knows the left neighbour: where none is held, the pixel starts its row (R145). -/
theorem leftIsClear_heldAfter (hw : 1 ≤ w) (hon : x.edgeEn = true) (hk : k < n) :
    leftIsClear w k (heldAfter x w n f k) = leftClear w f k := by
  cases k with
  | zero => exact (leftClear_of_rowStart f (Nat.zero_mod w)).symm
  | succ j =>
    cases hend : endsRow w n j with
    | true =>
      have hrow : j % w = w - 1 := ((endsRow_iff w n j).1 hend).resolve_right (by omega)
      rw [heldAfter_succ_of_endsRow hend,
        leftClear_of_rowStart f (mod_succ_of_mod_eq_pred hw hrow), leftIsClear]
    | false =>
      rw [heldAfter_succ_of_not_endsRow hon hend]
      rfl

/-- The held pixel leaves as R144 says, pixel `k` being its right neighbour (R145, part 1). -/
theorem releaseHeld_heldAfter (hon : x.edgeEn = true) (hk : k < n) :
    releaseHeld x (f k) (heldAfter x w n f k) = pending x w n f k := by
  cases k with
  | zero => rfl
  | succ j =>
    cases hend : endsRow w n j with
    | true => rw [pending, heldAfter_succ_of_endsRow hend, releaseHeld, Option.map_none,
        Option.map_none]
    | false =>
      rw [pending, heldAfter_succ_of_not_endsRow hon hend, releaseHeld, Option.map_some,
        Option.map_some, ruled, edgeRule_of_not_endsRow f hon hend (by omega)]

/-- One step keeps the account: what was owed and pixel `k` are what it releases and what is owed
after it. -/
theorem edge_heldAfter (hw : 1 ≤ w) (hk : k < n) :
    ∃ now, x.edge w n k (f k) (heldAfter x w n f k) = (now, heldAfter x w n f (k + 1)) ∧
      now ++ pending x w n f (k + 1) = pending x w n f k ++ [ruled x w n f k] := by
  cases hon : x.edgeEn with
  | false =>
    refine ⟨[ruled x w n f k], ?_, ?_⟩
    · rw [edge_of_off w n k _ _ hon, heldAfter_of_off (k + 1) hon, ruled,
        edgeRule_of_off w n f k hon]
    · simp [pending, heldAfter_of_off _ hon]
  | true =>
    cases hend : endsRow w n k with
    | true =>
      refine ⟨pending x w n f k ++ [ruled x w n f k], ?_, ?_⟩
      · rw [edge_of_endsRow _ _ hon hend, leftIsClear_heldAfter hw hon hk,
          releaseHeld_heldAfter hon hk, ← edgeRule_of_endsRow f hon hend,
          heldAfter_succ_of_endsRow hend, ruled]
      · simp [pending, heldAfter_succ_of_endsRow hend]
    | false =>
      refine ⟨pending x w n f k, ?_, ?_⟩
      · rw [edge_of_not_endsRow _ _ hon hend, leftIsClear_heldAfter hw hon hk,
          releaseHeld_heldAfter hon hk, heldAfter_succ_of_not_endsRow hon hend]
      · simp [pending, heldAfter_succ_of_not_endsRow hon hend]

/-- After the steps of the first `k` pixels, those released and the one owed are the first `k`, as R144
gives them. -/
theorem edgeRun_eq (hw : 1 ≤ w) (hk : k ≤ n) :
    ∃ out, edgeRun x w n f k = (out, heldAfter x w n f k) ∧
      out ++ pending x w n f k = (List.range k).map (ruled x w n f) := by
  induction k with
  | zero => exact ⟨[], rfl, rfl⟩
  | succ k ih =>
    obtain ⟨out, hrun, hout⟩ := ih (by omega)
    obtain ⟨now, hedge, hnow⟩ := edge_heldAfter (x := x) (f := f) hw hk
    refine ⟨out ++ now, ?_, ?_⟩
    · simp only [edgeRun, hrun, hedge]
    · rw [List.append_assoc, hnow, ← List.append_assoc, hout, List.range_succ, List.map_append,
        List.map_singleton]

/-- The job's last pixel is not held, so nothing is held at the end (R146). -/
theorem heldAfter_job (x : Context) (w n : Nat) (f : Nat → Entry) : heldAfter x w n f n = none := by
  cases n with
  | zero => rfl
  | succ m => exact heldAfter_succ_of_endsRow ((endsRow_iff w (m + 1) m).2 (Or.inr rfl))

end

/-- Settles O42: by induction over the steps, the pixels released and the one still owed are the pixels
so far as R144 gives them (`edgeRun_eq`); after the last step none is owed (`heldAfter_job`). -/
theorem edgeStreamMeetsTheEdgeRule : Obligations.EdgeStreamMeetsTheEdgeRule := by
  unfold Obligations.EdgeStreamMeetsTheEdgeRule
  intro x w n f hw _
  obtain ⟨out, hrun, hout⟩ := edgeRun_eq (x := x) (f := f) hw (le_refl n)
  rw [pending, heldAfter_job, Option.map_none, Option.toList_none, List.append_nil] at hout
  rw [hrun, heldAfter_job, hout]
  rfl

end Sys2Proof.Proofs
end

section
/-! PROOFS. The scanout port's host side (chapter 9): the entry a lookup's word carries (R2, R160) and
the next display bank of SCN_CTRL (R157). -/

namespace Sys2Proof.Proofs

open Sys2Proof Sys2Proof.Machine

/-! ## The entry of an entry word (R2) -/

/-- An entry word is the sum of the entry's components, each at its place (Table 1-1). -/
theorem toWord_toNat (e : Entry) : e.toWord.toNat =
    e.b.toNat + 2 ^ 8 * e.g.toNat + 2 ^ 16 * e.r.toNat + 2 ^ 24 * e.a.toNat := by
  rw [← arrange_reset, arrange_toNat]
  rfl

@[simp] theorem ofWord_toWord (e : Entry) : Entry.ofWord e.toWord = e := by
  have hfield (c : Byte) (lo : Nat) (h : e.toWord.toNat / 2 ^ lo % 2 ^ 8 = c.toNat) :
      fieldAt e.toWord lo 8 = c := BitVec.eq_of_toNat_eq ((fieldAt_toNat _ lo 8).trans h)
  have hsum := toWord_toNat e
  rw [Entry.ofWord, hfield e.a 24 (by omega), hfield e.r 16 (by omega), hfield e.g 8 (by omega),
    hfield e.b 0 (by omega)]

/-! ## A lookup's answer (R160) -/

theorem ofWord_lookupWord (s : State) (i : Byte) : Entry.ofWord (s.lookupWord i) =
    if s.scanout.state = .on then Palette.read (s.bank s.scanout.current).entries i.toNat
    else Entry.zero := by
  cases hstate : s.scanout.state with
  | on => rw [State.lookupWord, hstate, if_pos rfl, ofWord_toWord]
  | off | armed => rw [State.lookupWord, hstate, if_neg (by decide), ofWord_toWord]

/-! ## A write to SCN_CTRL (R157) -/

theorem exec_scnCtrl {s : State} (hfree : s.port.stretched = false) (v : Word) :
    exec (.scnCtrl v) s = .next
      { s with scanout := { s.scanout with next := BankId.ofCode (fieldAt v 0 2) } } := by
  rw [exec, execScnCtrl, onBus_of_free _ hfree]

/-- The bank field of a SCN_CTRL word, as a number. -/
theorem scnCtrlBank_code (v : Word) :
    (BankId.ofCode (fieldAt v 0 2)).code.toNat = v.toNat % 4 := by
  rw [code_ofCode, fieldAt_toNat, pow_zero, Nat.div_one]
  rfl

/-- A read of SCN_CTRL after the write of `v` gives `v` masked to the register's field. -/
theorem registerWord_scnCtrl {s : State} {v : Word}
    (h : s.scanout.next = BankId.ofCode (fieldAt v 0 2)) :
    s.registerWord .scnCtrl = some (v &&& 3) := by
  rw [State.registerWord, h, code_ofCode, putAt_fieldAt_eq_and]
  rfl

/-- Settles O16: the lookup's word carries the entry that R160 gives (`ofWord_lookupWord`), and the bank
that SCN_CTRL names is the written word's low field, which a read gives back. -/
theorem lookupsAndTheNextDisplayBank : Obligations.LookupsAndTheNextDisplayBank := by
  unfold Obligations.LookupsAndTheNextDisplayBank
  refine ⟨fun i s => ⟨s.lookupWord i, rfl, ofWord_lookupWord s i⟩, fun v s hfree => ?_⟩
  exact ⟨_, exec_scnCtrl hfree v, rfl, scnCtrlBank_code v, registerWord_scnCtrl rfl⟩

end Sys2Proof.Proofs
end

section
/-! PROOFS. The event queue's claims and settings (chapter 10): what a claiming read keeps, the removal
of the claimed record (R167, R168), the interrupt line (R171) and EQ_CTRL with what keeps its two fields
(R172). -/

namespace Sys2Proof.Proofs

open Sys2Proof Sys2Proof.Machine

/-! ## A host access as one of two states -/

/-- A host access leaves the part as it was, while a read is stretched, or has its effect. -/
theorem onBus_next_cases {s t : State} {f : State → State} (h : onBus s f = .next t) :
    t = s ∨ t = f s := by
  cases hstretched : s.port.stretched with
  | true =>
    rw [onBus_of_stretched f hstretched] at h
    exact .inl (Host.Outcome.next.inj h).symm
  | false =>
    rw [onBus_of_free f hstretched] at h
    exact .inr (Host.Outcome.next.inj h).symm

/-! ## Claiming and removing a record (R166, R167) -/

/-- Claiming the presented record changes the claim alone (R166). -/
theorem claimFront_frame (q : EventQueue) :
    q.claimFront = { q with claim := q.claimFront.claim } := by
  unfold EventQueue.claimFront
  split <;> rfl

theorem removeClaimed_of_none {q : EventQueue} (hclaim : q.claim = none) : q.removeClaimed = q := by
  rw [EventQueue.removeClaimed, hclaim]

theorem removeClaimed_of_urgent {q : EventQueue} {r : StampedRecord} {rest : List StampedRecord}
    (hclaim : q.claim = some .urgent) (hurgent : q.urgent = r :: rest) :
    q.removeClaimed = { q with urgent := rest, claim := none } := by
  simp only [EventQueue.removeClaimed, hclaim, hurgent, List.tail_cons]

theorem removeClaimed_of_routine {q : EventQueue} {r : StampedRecord} {rest : List StampedRecord}
    (hclaim : q.claim = some .routine) (hroutine : q.routine = r :: rest) :
    q.removeClaimed = { q with
      routine := rest, claim := none
      timer := if rest = [] then 0 else q.timer
      overdue := if rest = [] then false else q.overdue } := by
  simp only [EventQueue.removeClaimed, hclaim, hroutine, List.tail_cons]

/-! ## EQ_POP and EQ_NEXT (R167, R168) -/

theorem exec_eqPop_of_no_claim {s : State} (hfree : s.port.stretched = false)
    (hclaim : s.eq.claim = none) (v : Word) :
    exec (.eqPop v) s = .next (s.flag .popNoClaim) := by
  rw [exec, execEqPop, onBus_of_free _ hfree, if_pos hclaim]

theorem exec_eqPop_of_claim {s : State} {k : EventClass} (hfree : s.port.stretched = false)
    (hclaim : s.eq.claim = some k) (v : Word) :
    exec (.eqPop v) s = .next { s with eq := s.eq.removeClaimed } := by
  rw [exec, execEqPop, onBus_of_free _ hfree, if_neg (by simp [hclaim]), State.withEq]

theorem exec_eqHead0 {s : State} (hfree : s.port.stretched = false) :
    exec .eqHead0 s = .next
      ((s.withEq s.eq.claimFront).returns (recordWord0 s.eq.claimFront.claimed)) := by
  rw [exec, execEqHead0, onBus_of_free _ hfree]

theorem exec_eqNext {s : State} (hfree : s.port.stretched = false) :
    exec .eqNext s = .next ((s.withEq s.eq.removeClaimed.claimFront).returns
      (recordWord0 s.eq.removeClaimed.claimFront.claimed)) := by
  rw [exec, execEqNext, onBus_of_free _ hfree]

/-- A read of EQ_NEXT is a read of EQ_HEAD0 after the claimed record, if there is one, is removed. -/
theorem eqNext_is_eqHead0_after_removal {s : State} (hfree : s.port.stretched = false) :
    ∃ t, exec .eqNext s = .next t ∧
      exec .eqHead0 { s with eq := s.eq.removeClaimed } = .next t :=
  ⟨_, exec_eqNext hfree, exec_eqHead0 (s := { s with eq := s.eq.removeClaimed }) hfree⟩

/-- Settles O46: a pop and EQ_NEXT both go through the removal of the claimed record, whose three cases
are those of the claim. -/
theorem popsRemoveOnlyTheClaimedRecord : Obligations.PopsRemoveOnlyTheClaimedRecord := by
  unfold Obligations.PopsRemoveOnlyTheClaimedRecord
  intro v s hfree
  have hnext := eqNext_is_eqHead0_after_removal hfree
  refine ⟨fun hclaim => ?none, fun q rest hclaim hurgent => ?urgent,
    fun q rest hclaim hroutine => ?routine⟩
  case none =>
    rw [removeClaimed_of_none hclaim] at hnext
    exact ⟨exec_eqPop_of_no_claim hfree hclaim v, hnext⟩
  case urgent =>
    have hpop := exec_eqPop_of_claim hfree hclaim v
    rw [removeClaimed_of_urgent hclaim hurgent] at hpop hnext
    exact ⟨hpop, hnext⟩
  case routine =>
    exact ⟨_, removeClaimed_of_routine hclaim hroutine,
      exec_eqPop_of_claim hfree hclaim v, hnext⟩

/-! ## The interrupt line (R171) -/

/-- Every bit of HOST_FAULTS is a flag's (Table 11-2). -/
theorem exists_hostFault_bit {i : Nat} (hi : i < 10) : ∃ f : HostFault, f.bit = i := by
  interval_cases i
  exacts [⟨.badAccess, rfl⟩, ⟨.settingRefused, rfl⟩, ⟨.stageRefused, rfl⟩, ⟨.accessRefused, rfl⟩,
    ⟨.jobRefused, rfl⟩, ⟨.inputDropped, rfl⟩, ⟨.outputEmpty, rfl⟩, ⟨.popNoClaim, rfl⟩,
    ⟨.buildRefused, rfl⟩, ⟨.cmdIgnored, rfl⟩]

theorem hostFaults_ne_zero_iff (s : State) :
    s.hostFaults ≠ 0 ↔ ∃ f : HostFault, s.flagged f = true := by
  constructor
  · contrapose!
    intro hclear
    refine BitVec.eq_of_getLsbD_eq fun i hi => ?_
    obtain ⟨f, rfl⟩ := exists_hostFault_bit hi
    exact (Bool.eq_false_iff.2 (hclear f)).trans BitVec.getLsbD_zero.symm
  · rintro ⟨f, hf⟩ hzero
    simp [State.flagged, hzero] at hf

theorem irq_iff (s : State) : s.irq = true ↔
    (0 < s.eq.urgent.length ∧ s.enables.urg = true) ∨
      (s.eq.threshold.toNat ≤ s.eq.routine.length ∧ s.enables.rtn = true) ∨
      (s.eq.overdue = true ∧ s.enables.rtn = true) ∨
      ((∃ f : HostFault, s.flagged f = true) ∧ s.enables.flt = true) := by
  simp only [State.irq, State.urgentCondition, State.routineCondition, State.overdueCondition,
    State.faultCondition, Bool.or_eq_true, Bool.and_eq_true, decide_eq_true_eq,
    hostFaults_ne_zero_iff, or_assoc]
  rfl

/-- The claim and the data of a read are no part of IRQ's conditions. -/
theorem irq_of_claiming_read {word : Option StampedRecord → Word} {s t : State}
    (h : onBus s (fun s => (s.withEq s.eq.claimFront).returns (word s.eq.claimFront.claimed)) =
      .next t) : t.irq = s.irq := by
  obtain rfl | rfl := onBus_next_cases h
  · rfl
  · rw [claimFront_frame]
    rfl

/-- With no record a threshold of 1 or more is not reached, so a soft reset leaves no condition. -/
theorem irq_softReset {s : State} (hthreshold : 1 ≤ s.eq.threshold.toNat) :
    s.softReset.irq = false := by
  have hroutine : s.softReset.routineCondition = false := by
    have hbelow : ¬s.eq.threshold.toNat ≤ 0 := by omega
    rw [State.routineCondition, Bool.and_eq_false_iff]
    exact .inl (decide_eq_false hbelow)
  rw [State.irq, hroutine]
  rfl

/-- Settles O8: the four conditions are `irq_iff`, a flag being set exactly when HOST_FAULTS is not 0;
a full reset clears the enables, and a claim is no part of the conditions. -/
theorem irqFollowsItsFourConditions : Obligations.IrqFollowsItsFourConditions := by
  unfold Obligations.IrqFollowsItsFourConditions
  refine ⟨irq_iff, fun s t h => ?fullReset, fun s hok => ?softReset,
    fun s t h => irq_of_claiming_read (word := recordWord0) h,
    fun s t h => irq_of_claiming_read (word := recordWord1) h⟩
  case fullReset =>
    obtain rfl := Host.Outcome.next.inj h
    exact ⟨rfl, rfl⟩
  case softReset =>
    obtain ⟨-, -, -, -, hthreshold, -⟩ := hok
    exact ⟨irq_softReset hthreshold, rfl⟩

/-! ## What keeps the EQ_CTRL fields (R172) -/

/-- The two fields of EQ_CTRL. -/
def eqSettings (q : EventQueue) : BitVec 5 × Byte := (q.threshold, q.timeout)

theorem eqSettings_eq_iff {q p : EventQueue} : eqSettings q = eqSettings p ↔
    q.threshold = p.threshold ∧ q.timeout = p.timeout := Prod.mk_inj

@[simp] theorem eqSettings_insert (q : EventQueue) (r : EventRecord) :
    eqSettings (q.insert r) = eqSettings q := by
  unfold EventQueue.insert
  split <;> rfl

@[simp] theorem eqSettings_softReset (s : State) :
    eqSettings s.softReset.eq = eqSettings s.eq := rfl

@[simp] theorem eqSettings_commit (s : State) (b : BankId) :
    eqSettings (s.commit b).eq = eqSettings s.eq := by
  rw [commit_eventQueue]
  split
  · exact eqSettings_insert _ _
  · rfl

@[simp] theorem eqSettings_attemptCommit (s : State) (b : BankId) :
    eqSettings (s.attemptCommit b).eq = eqSettings s.eq := by
  rcases s.attemptCommit_cases b with ⟨-, h⟩ | ⟨-, h⟩ <;> simp [h]

@[simp] theorem eqSettings_judgeBank (s : State) (b : BankId) :
    eqSettings (s.judgeBank b).eq = eqSettings s.eq := by
  rcases s.judgeBank_cases b with ⟨-, h⟩ | ⟨-, h⟩ <;> simp [h]

@[simp] theorem eqSettings_releaseBank (s : State) (b : BankId) :
    eqSettings (s.releaseBank b).eq = eqSettings s.eq := by
  simp [State.releaseBank]

@[simp] theorem eqSettings_releaseHolds (s : State) (x : Context) :
    eqSettings (s.releaseHolds x).eq = eqSettings s.eq := by
  obtain ⟨w, hw, h⟩ := s.releaseHolds_spec x
  rw [h]
  split <;> simp [hw]

@[simp] theorem eqSettings_noCandidates (s : State) (m : MapId) :
    eqSettings (s.noCandidates m).eq = eqSettings s.eq := by
  simp [State.noCandidates, State.emptyMap, State.wakeMap]

@[simp] theorem eqSettings_startBuild (s : State) (r : BuildRequest) :
    eqSettings (s.startBuild r).eq = eqSettings s.eq := by
  rcases s.startBuild_cases r with h | ⟨-, h⟩ <;> simp [h]

@[simp] theorem eqSettings_lookForBuild (s : State) :
    eqSettings s.lookForBuild.eq = eqSettings s.eq := by
  rcases s.lookForBuild_cases with h | ⟨r, -, -, -, h⟩ <;> simp [h]

@[simp] theorem eqSettings_enableScanout (s : State) :
    eqSettings s.enableScanout.eq = eqSettings s.eq := by
  unfold State.enableScanout
  split <;> rfl

@[simp] theorem eqSettings_disableScanout (s : State) :
    eqSettings s.disableScanout.eq = eqSettings s.eq := by
  unfold State.disableScanout
  split
  · rfl
  · rfl
  · simp

@[simp] theorem eqSettings_writeEngCtrl (s : State) (reset e : Bool) (en : IrqEnables) :
    eqSettings (s.writeEngCtrl reset e en).eq = eqSettings s.eq := by
  cases reset <;> cases e <;> simp [State.writeEngCtrl]

theorem eqSettings_of_exec_softReset {e : Bool} {en : IrqEnables} {s t : State}
    (h : exec (.softReset e en) s = .next t) : eqSettings t.eq = eqSettings s.eq := by
  rw [exec, execSoftReset] at h
  obtain rfl | rfl := onBus_next_cases h
  · rfl
  · exact eqSettings_writeEngCtrl s true e en

theorem eqSettings_of_exec_chCmdReset {c : Chan} {s t : State}
    (h : exec (.chCmdReset c) s = .next t) : eqSettings t.eq = eqSettings s.eq := by
  rw [exec, execChCmdReset] at h
  obtain rfl | rfl := onBus_next_cases h
  · rfl
  · dsimp only
    split <;> simp

/-! ## A write to EQ_CTRL is judged (R172) -/

/-- The threshold field of an EQ_CTRL word, as a number. -/
theorem eqCtrlThreshold_toNat (v : Word) : (fieldAt v 0 5).toNat = v.toNat % 32 := by
  rw [fieldAt_toNat, pow_zero, Nat.div_one, show 2 ^ 5 = 32 from rfl]

/-- The timeout field of an EQ_CTRL word, as a number. -/
theorem eqCtrlTimeout_toNat (v : Word) : (fieldAt v 8 8).toNat = v.toNat / 256 % 256 :=
  fieldAt_toNat v 8 8

theorem eqCtrlRefused_iff (v : Word) :
    (fieldAt v 0 5 = 0 ∨ Config.maxRoutine < (fieldAt v 0 5).toNat) ↔
      (v.toNat % 32 = 0 ∨ 24 < v.toNat % 32) := by
  rw [← BitVec.toNat_inj, eqCtrlThreshold_toNat]
  rfl

theorem exec_eqCtrl_of_refused {s : State} {v : Word} (hfree : s.port.stretched = false)
    (h : v.toNat % 32 = 0 ∨ 24 < v.toNat % 32) :
    exec (.eqCtrl v) s = .next (s.flag .settingRefused) := by
  rw [exec, execEqCtrl, onBus_of_free _ hfree, if_pos ((eqCtrlRefused_iff v).2 h)]

theorem exec_eqCtrl_of_accepted {s : State} {v : Word} (hfree : s.port.stretched = false)
    (h : ¬(v.toNat % 32 = 0 ∨ 24 < v.toNat % 32)) :
    exec (.eqCtrl v) s = .next (s.withEq { s.eq with
      threshold := fieldAt v 0 5, timeout := fieldAt v 8 8 }) := by
  rw [exec, execEqCtrl, onBus_of_free _ hfree, if_neg (mt (eqCtrlRefused_iff v).1 h)]

/-- A read of EQ_CTRL after the write of `v` gives `v` masked to the register's fields. -/
theorem registerWord_eqCtrl {s : State} {v : Word} (hthreshold : s.eq.threshold = fieldAt v 0 5)
    (htimeout : s.eq.timeout = fieldAt v 8 8) :
    s.registerWord .eqCtrl = some (v &&& 0x0000FF1F) := by
  rw [State.registerWord, hthreshold, htimeout, putAt_fieldAt_eq_and, putAt_fieldAt_eq_and,
    ← BitVec.and_or_distrib_left]
  rfl

/-- Settles O47: a write is judged by the threshold field's number (`eqCtrlRefused_iff`), and no part of
a soft reset or a channel reset, with the commit and the build start it may bring, changes the two
fields (`eqSettings`). -/
theorem thresholdWriteIsJudged : Obligations.ThresholdWriteIsJudged := by
  unfold Obligations.ThresholdWriteIsJudged
  refine ⟨fun v s hfree => ⟨fun h => exec_eqCtrl_of_refused hfree h, fun h => ?accepted⟩,
    fun s t h => ?fullReset, fun e en s t h => eqSettings_eq_iff.1 (eqSettings_of_exec_softReset h),
    fun c s t h => eqSettings_eq_iff.1 (eqSettings_of_exec_chCmdReset h)⟩
  case accepted =>
    refine ⟨_, exec_eqCtrl_of_accepted hfree h, rfl, eqCtrlThreshold_toNat v, eqCtrlTimeout_toNat v,
      registerWord_eqCtrl rfl rfl, ?_⟩
    rw [← eqCtrlThreshold_toNat]
    rfl
  case fullReset =>
    obtain rfl := Host.Outcome.next.inj h
    exact ⟨rfl, rfl⟩

end Sys2Proof.Proofs
end

section
/-! PROOFS. The full reset, state by state (R181), and the word of MAP_STATUS with its shape code: the
word as a sum of fields (Table 11-9), the code's digits and what it decodes to (R183). -/

namespace Sys2Proof.Proofs

open Sys2Proof Sys2Proof.Machine

/-! ## The part after a full reset (R181) -/

theorem exec_fullReset (s : State) : exec .fullReset s = .next s.fullReset := rfl

@[simp] theorem bank_fullReset (s : State) (b : BankId) : s.fullReset.bank b = Bank.reset := by
  cases b <;> rfl

@[simp] theorem map_fullReset (s : State) (m : MapId) : s.fullReset.map m = ReductionMap.reset := by
  cases m <;> rfl

@[simp] theorem chan_fullReset (s : State) (c : Chan) : s.fullReset.chan c = Channel.reset := by
  cases c <;> rfl

@[simp] theorem commitOf_fullReset (s : State) (b : BankId) : s.fullReset.commitOf b = .none := by
  cases b <;> rfl

@[simp] theorem sealedPending_fullReset (s : State) (b : BankId) :
    s.fullReset.sealedPending b = false := by simp [State.sealedPending]

@[simp] theorem hasRole_fullReset (s : State) (b : BankId) : s.fullReset.hasRole b = false := rfl

@[simp] theorem buildPending_fullReset (s : State) (m : MapId) :
    s.fullReset.buildPending m = false := rfl

/-- The shape code of an EMPTY 2 × 2 × 2 map, and every other field of MAP_STATUS, is 0 (R183). -/
theorem mapStatus_fullReset (s : State) (m : MapId) : s.fullReset.mapStatus m = 0 := by
  rw [State.mapStatus, buildPending_fullReset, map_fullReset]
  rfl

/-- ENG_CTRL reads 0: the scanout unit is OFF and no interrupt is enabled (R181). -/
theorem engCtrlRead_fullReset (s : State) : s.fullReset.engCtrlRead = 0 := by
  have hview : s.fullReset.engCtrlRead = State.reset.engCtrlRead := rfl
  rw [hview]
  decide

/-- Settles O4: the state a full reset gives is `State.reset` but for the queue, so that each block has
its owner's reset value and each view is that of the reset state. -/
theorem fullResetGivesEveryResetValue : Obligations.FullResetGivesEveryResetValue := by
  unfold Obligations.FullResetGivesEveryResetValue
  intro s
  refine ⟨_, exec_fullReset s, fun b => ?bank, rfl, commitOf_fullReset s, rfl, fun m => ?map, rfl,
    fun c => ?chan, rfl, rfl, rfl, engCtrlRead_fullReset s, rfl, rfl, rfl, fun _ => rfl, rfl⟩
  case bank =>
    rw [bank_fullReset]
    exact ⟨fun _ => rfl, rfl, rfl, sealedPending_fullReset s b, hasRole_fullReset s b⟩
  case map => exact ⟨map_fullReset s m, buildPending_fullReset s m, mapStatus_fullReset s m⟩
  case chan =>
    rw [chan_fullReset]
    exact ⟨rfl, rfl⟩

/-! ## The digits of the shape code (R183) -/

theorem dimOk_eq_true_iff (n : Nat) : dimOk n = true ↔ 2 ≤ n ∧ n ≤ 8 := decide_eq_true_iff

theorem dims_of_valid {p : MapParams} (h : p.valid = true) :
    (2 ≤ p.nr ∧ p.nr ≤ 8) ∧ (2 ≤ p.ng ∧ p.ng ≤ 8) ∧ 2 ≤ p.nb ∧ p.nb ≤ 8 := by
  simp only [MapParams.valid, Bool.and_eq_true, dimOk_eq_true_iff] at h
  obtain ⟨⟨⟨-, hnr⟩, hng⟩, hnb⟩ := h
  exact ⟨hnr, hng, hnb⟩

/-- With at most three holders the number Q is one decimal digit (R183). -/
theorem shapeQ_lt_ten {x : ReductionMap} (h : x.holders ≤ 3) : x.shapeQ < 10 := by
  unfold ReductionMap.shapeQ
  split <;> omega

theorem shapeCode_le {x : ReductionMap} (hvalid : x.params.valid = true) (hholders : x.holders ≤ 3) :
    x.shapeCode ≤ 3429 := by
  obtain ⟨hnr, hng, hnb⟩ := dims_of_valid hvalid
  have hq := shapeQ_lt_ten hholders
  rw [ReductionMap.shapeCode]
  omega

/-- The decoding of R183: the digits of the code in the bases 10, 7, 7 are Q and the dimensions
less 2, each below its base. -/
theorem shapeCode_decode {x : ReductionMap} (hvalid : x.params.valid = true)
    (hholders : x.holders ≤ 3) :
    x.shapeCode % 10 = x.shapeQ ∧ 2 + x.shapeCode / 10 % 7 = x.params.nr ∧
      2 + x.shapeCode / 70 % 7 = x.params.ng ∧ 2 + x.shapeCode / 490 = x.params.nb := by
  obtain ⟨hnr, hng, hnb⟩ := dims_of_valid hvalid
  have hq := shapeQ_lt_ten hholders
  rw [ReductionMap.shapeCode]
  omega

/-! ## MAP_STATUS as a number (Table 11-9) -/

/-- A status word is built from its lowest field up: the field put on top of a word whose value `a` lies
below its place adds to it. -/
theorem or_putAt_toNat {n a k : Nat} {y : Word} (hy : y.toNat = a) (x : BitVec n) (ha : a < 2 ^ k)
    (h : n + k ≤ 32) : (y ||| putAt x k).toNat = a + 2 ^ k * x.toNat := by
  rw [BitVec.or_comm, putAt_or_toNat x k y (hy ▸ ha) h, hy, Nat.add_comm]

theorem or_putBit_toNat {a k : Nat} {y : Word} (hy : y.toNat = a) (b : Bool) (ha : a < 2 ^ k)
    (h : 1 + k ≤ 32) : (y ||| putBit b k).toNat = a + 2 ^ k * b.toNat := by
  rw [putBit, or_putAt_toNat hy _ ha h, ofBool_toNat]

theorem or_putNat_toNat {w n a k : Nat} {y : Word} (hy : y.toNat = a) (hn : n < 2 ^ w)
    (ha : a < 2 ^ k) (h : w + k ≤ 32) : (y ||| putNat w n k).toNat = a + 2 ^ k * n := by
  rw [putNat, or_putAt_toNat hy _ ha h, BitVec.toNat_ofNat, Nat.mod_eq_of_lt hn]

/-- The fields of MAP_STATUS below the shape code: build-pending, auto-rebuild, source bank. -/
def mapStatusLow (s : State) (m : MapId) : Nat :=
  (s.buildPending m).toNat + 2 * (s.map m).params.autoRebuild.toNat +
    4 * (s.map m).params.source.code.toNat

theorem mapStatusLow_lt (s : State) (m : MapId) : mapStatusLow s m < 16 := by
  have hpending := Bool.toNat_le (s.buildPending m)
  have hauto := Bool.toNat_le (s.map m).params.autoRebuild
  have hsource := (s.map m).params.source.code.isLt
  rw [mapStatusLow]
  omega

/-- MAP_STATUS as the sum of its fields at their places, for a shape code of twelve bits. -/
theorem mapStatus_toNat {s : State} {m : MapId} (hcode : (s.map m).shapeCode < 4096) :
    (s.mapStatus m).toNat = mapStatusLow s m + 16 * (s.map m).shapeCode +
      65536 * (s.map m).generation.toNat := by
  have hlow := mapStatusLow_lt s m
  have hpending_le := Bool.toNat_le (s.buildPending m)
  have hauto_le := Bool.toNat_le (s.map m).params.autoRebuild
  rw [mapStatusLow] at hlow ⊢
  have hpending : (putBit (s.buildPending m) 0).toNat = (s.buildPending m).toNat := by
    rw [putBit, putAt_toNat _ _ (by decide), ofBool_toNat, pow_zero, Nat.one_mul]
  have hauto := or_putBit_toNat (k := 1) hpending (s.map m).params.autoRebuild (by omega) (by decide)
  have hsource :=
    or_putAt_toNat (k := 2) hauto (s.map m).params.source.code (by omega) (by decide)
  have hshape := or_putNat_toNat (w := 12) (k := 4) hsource hcode (by omega) (by decide)
  exact or_putAt_toNat (k := 16) hshape (s.map m).generation (by omega) (by decide)

/-- Bits 15 to 4 of MAP_STATUS are the shape code (Table 11-9). -/
theorem mapStatus_shapeField {s : State} {m : MapId} (hcode : (s.map m).shapeCode < 4096) :
    (s.mapStatus m).toNat / 16 % 4096 = (s.map m).shapeCode := by
  have hlow := mapStatusLow_lt s m
  rw [mapStatus_toNat hcode]
  omega

/-- Settles O50: the code's digits are Q and the three dimensions (`shapeCode_decode`), its range fits
the twelve bits of its field (`mapStatus_shapeField`), and the reset map's code is 0. -/
theorem shapeCodeDecodes : Obligations.ShapeCodeDecodes := by
  unfold Obligations.ShapeCodeDecodes
  refine ⟨fun x hvalid hholders => ?code, fun s m hvalid hholders => ?word, fun s t m h => ?reset⟩
  case code =>
    exact ⟨x.shapeQ, rfl, shapeCode_le hvalid hholders, fun h => by rw [ReductionMap.shapeQ, h],
      fun h => by rw [ReductionMap.shapeQ, h], fun h => by rw [ReductionMap.shapeQ, h],
      fun h => by rw [ReductionMap.shapeQ, h], shapeCode_decode hvalid hholders⟩
  case word =>
    have hle := shapeCode_le hvalid hholders
    exact ⟨s.mapStatus m, rfl, mapStatus_shapeField (by omega)⟩
  case reset =>
    obtain rfl := Host.Outcome.next.inj h
    exact congrArg some (mapStatus_fullReset s m)

end Sys2Proof.Proofs
end

section
/-! PROOFS. One event as a chain of moves: the moves an event of the part is made of, each with the
conditions under which it happens and each keeping the laws by itself, and the one inversion lemma,
that whatever a command does is a chain of them. The laws of every event are proved over moves. -/

namespace Sys2Proof.Proofs

open Sys2Proof Sys2Proof.Machine Sys2Proof.Safety

/-! ## The moves of a channel, of the update queue and of the port -/

/-- What an event does to a channel that neither enters nor leaves RUN by it. -/
inductive ChanMove (s : State) (c : Chan) (x : Channel) : Channel → Prop
  /-- A context write (R112). -/
  | context (k : Context) : x.state.hasJob = false → ChanMove s c x { x with ctx := k }
  /-- A write of JOB_COUNT or JOB_WIDTH (R113). -/
  | registers (n : BitVec 20) (w : BitVec 13) :
      ChanMove s c x { x with jobCount := n, jobWidth := w }
  /-- A descriptor is pushed (R114). -/
  | push (j : Job) : j.valid = true → x.jobs.length < Config.maxJobs → ChanMove s c x (x.push j)
  /-- A word enters the input FIFO (R131). -/
  | input (v : Word) : x.inFifo.length < Config.fifoDepth →
      ChanMove s c x { x with inFifo := x.inFifo ++ [v] }
  /-- A word leaves the output FIFO (R133). -/
  | output {w : Word} {rest : List Word} (n : Nat) : x.outFifo = w :: rest →
      ChanMove s c x { x with outFifo := rest, stall := n }
  /-- The stall timer advances (R126). -/
  | stall (n : Nat) : ChanMove s c x { x with stall := n }
  /-- RESUME (R130). -/
  | resume : x.state = .halted → ChanMove s c x x.nextJob
  /-- A channel reset outside RUN (R134). -/
  | reset : x.state ≠ .run → ChanMove s c x x.chanReset
  /-- The segment's start waits for the bank's commit (Table 7-4). -/
  | waitBank : x.state = .wait .start → s.bankHoldsBack x.ctx = true →
      ChanMove s c x { x with state := .wait .bankCommit }
  /-- The segment's start waits for the map (Table 7-4). -/
  | waitMap : x.state = .wait .start → s.mapHoldsBack x.ctx = true →
      ChanMove s c x { x with state := .wait .mapBusy }
  /-- A fault outside RUN (R125). -/
  | fault (f : FaultCode) : x.state ≠ .run → x.state.hasJob = true → ChanMove s c x (x.faulted c f)
  /-- The record the channel had in POST is inserted (R123). -/
  | posted (r : EventRecord) : x.state = .post r → ChanMove s c x (x.posted r)
  /-- A pixel step inside a segment (R139). -/
  | pixel (job : Job) (r : PixelResult) : s.pixelReady c = some (job, r) →
      x.path.next + 1 ≠ job.count →
      x.path.next ≠ segmentLast x.ctx.segLen.toNat job.count x.segment →
      ChanMove s c x (x.withStep r)

/-- What takes a channel out of RUN. -/
inductive ChanLeave (s : State) (c : Chan) (x : Channel) : Channel → Prop
  /-- A fault (R125). -/
  | fault (f : FaultCode) : ChanLeave s c x (x.faulted c f)
  /-- A channel reset (R134). -/
  | reset : ChanLeave s c x x.chanReset
  /-- The step of the job's last pixel (R122). -/
  | jobEnd (job : Job) (r : PixelResult) : s.pixelReady c = some (job, r) →
      x.path.next + 1 = job.count → ChanLeave s c x ((x.withStep r).jobEnded c job)
  /-- The step of a segment's last pixel (R121). -/
  | segmentEnd (job : Job) (r : PixelResult) (gen : BitVec 16) : s.pixelReady c = some (job, r) →
      x.path.next + 1 ≠ job.count →
      x.path.next = segmentLast x.ctx.segLen.toNat job.count x.segment →
      ChanLeave s c x ((x.withStep r).segmentEnded c job gen)

/-- What staging and discarding do to the update records (R39 to R41, R46). -/
inductive StageMove (q : UpdateQueue) : List UpdateRecord → Prop
  | header (h : StgHeader) : q.refusesHeader h = false → q.openRecord = none →
      StageMove q (q.records ++ [h.record])
  | dropOpen : StageMove q q.withoutOpen
  | colour (e : Entry) : StageMove q (q.records.map fun r => r.append e)
  | discard (b : BankId) :
      StageMove q (q.records.filter fun r => decide (r.bank ≠ b ∨ r.state = .sealed))

/-- What the host and the fetches do to the port (R60, R63, R64, R67). -/
inductive PortMove (s : State) : AccessPort → Prop
  | address (t : PortTarget) (i : Nat) : i < t.positions →
      PortMove s { target := t, index := i, items := [], filling := true, stretched := false }
  | advance : PortMove s s.port.advance
  | stretch : s.port.items = [] → PortMove s { s.port with filling := true, stretched := true }
  | answer : s.port.items = [] → PortMove s { s.port.advance with stretched := false }
  | fetch : s.port.filling = true → ¬(s.port.stretched = true ∧ s.port.items = []) →
      PortMove s { s.port with
        items := s.port.items ++ [s.item s.port.target s.port.fetchPosition]
        filling := decide (s.port.items = []) }

/-! ## The parts of a release, a build's end and a build's start -/

/-- The holds of a segment are given up; its bank is not judged yet (R17, R84). -/
def dropHolds (s : State) (x : Context) : State :=
  let s1 := if x.dst = .i8 then s.releaseMap x.map else s
  if x.src = .i8 then
    s1.setBank x.bank { s1.bank x.bank with holders := (s1.bank x.bank).holders - 1 }
  else s1

theorem releaseHolds_eq_judge (s : State) (x : Context) : s.releaseHolds x =
    if x.src = .i8 then (dropHolds s x).judgeBank x.bank else dropHolds s x := by
  unfold State.releaseHolds dropHolds State.releaseBank
  by_cases h : x.src = .i8 <;> simp [h]

/-- The hold of the engine on the source bank of the map is given up, with the engine in POST and
the map's waiting channels woken; the bank is not judged yet (R99, R102, R105). -/
def engineLetsGo (s : State) (m : MapId) (x : ReductionMap) (r : EventRecord) : State :=
  let s1 := ((s.setMap m x).wakeMap m).enginePosts r
  s1.setBank x.params.source
    { s1.bank x.params.source with holders := (s1.bank x.params.source).holders - 1 }

/-- The map after its last cell (R102). -/
def finishedMap (x : ReductionMap) (c : Cell) : ReductionMap :=
  { x with state := .ready, generation := x.generation + 1, cells := x.cells ++ [c] }

/-- The end of a build by its last cell, before the source bank is judged (R102). -/
def finished (s : State) (m : MapId) (c : Cell) : State :=
  engineLetsGo (s.writeCell m c) m (finishedMap (s.map m) c)
    (buildDone m ((s.map m).generation + 1) (s.bank (s.map m).params.source).generation)

/-- The end of a build by an abort, before the source bank is judged (R105). -/
def aborted (s : State) (m : MapId) : State :=
  engineLetsGo (s.invalidate (.map m)) m { s.map m with state := .empty, cells := [] }
    (buildFault m .aborted)

/-- A build that ends at its start for want of an eligible entry (R99). -/
def failedStart (s : State) (r : BuildRequest) : State :=
  State.wakeMap { s with
    maps := s.maps.set r.map { s.map r.map with state := .empty, params := r.params, cells := [] }
    port := portAfterChange s.port (.map r.map)
    engine := { s.engine with
      state := .post (buildFault r.map .noCandidates), current := r.map, progress := 0
      requests := s.engine.requests.filter fun q => decide (q.map ≠ r.map) } } r.map

/-! ## The moves -/

/-- What the event of command `i` is made of. A move that only some commands make names them. -/
inductive Move (i : Instr) (s : State) : State → Prop
  /-- Flags, enables, timebase, read data and the free counter. -/
  | book (u : State) : u = { s with
        hostFaults := u.hostFaults, enables := u.enables, timebase := u.timebase, bus := u.bus
        freeCount := u.freeCount } →
      (s.timebase.div ≠ 0 → u.timebase.div ≠ 0) →
      (clearsHostFaults i = false → ∀ f, s.flagged f = true → u.flagged f = true) → Move i s u
  /-- The frame counter and the next display bank. -/
  | display (x : Scanout) : x.state = s.scanout.state → x.current = s.scanout.current →
      Move i s { s with scanout := x }
  /-- The unit goes to a state other than ON (R156). -/
  | darken (x : ScanoutState) : x ≠ .on →
      Move i s { s with scanout := { s.scanout with state := x } }
  /-- The unit shows the next display bank (R158). -/
  | showNext : i = .frameStart → Move i s s.showNext
  /-- The settings, timers and rotation of the event queue (R172, R173, R169). -/
  | settings (q : EventQueue) : q.urgent = s.eq.urgent → q.routine = s.eq.routine →
      q.claim = s.eq.claim →
      (s.eq.routine = [] → s.eq.timer = 0 ∧ s.eq.overdue = false →
        q.timer = 0 ∧ q.overdue = false) →
      (1 ≤ s.eq.threshold.toNat ∧ s.eq.threshold.toNat ≤ 24 →
        1 ≤ q.threshold.toNat ∧ q.threshold.toNat ≤ 24) → Move i s (s.withEq q)
  /-- The presented record is claimed (R166). -/
  | claim : Move i s (s.withEq s.eq.claimFront)
  /-- The claimed record is removed (R167). -/
  | unclaim : endsClaim i = true → Move i s (s.withEq s.eq.removeClaimed)
  /-- A record is inserted (R163). -/
  | insert (r : EventRecord) : s.eq.hasRoom r.cls = true → Move i s (s.insertEvent r)
  /-- A channel moves outside or inside RUN. -/
  | chan (c : Chan) (y : Channel) : ChanMove s c (s.chan c) y → Move i s (s.setChan c y)
  /-- A channel leaves RUN, its holds given up. -/
  | leave (c : Chan) (y : Channel) : (s.chan c).state = .run → ChanLeave s c (s.chan c) y →
      Move i s (dropHolds (s.setChan c y) (s.chan c).ctx)
  /-- A channel enters RUN and takes its holds (R119). -/
  | start (c : Chan) : i = .segmentStartAttempt c → (s.chan c).state = .wait .start →
      s.bankHoldsBack (s.chan c).ctx = false → s.mapHoldsBack (s.chan c).ctx = false →
      Move i s ((s.setChan c { s.chan c with state := .run, stall := 0 }).takeHolds (s.chan c).ctx)
  /-- The abort slot and the parameter registers of the engine. -/
  | engine (e : BuildEngine) : e.state = s.engine.state → e.current = s.engine.current →
      e.progress = s.engine.progress → e.requests = s.engine.requests →
      Move i s { s with engine := e }
  /-- The engine's record is inserted (R104). -/
  | unpost (r : EventRecord) : s.engine.state = .post r →
      Move i s { s with engine := { s.engine with state := .idle, current := .m0, progress := 0 } }
  /-- A request joins the list (R94). -/
  | request (r : BuildRequest) : (s.map r.map).state ≠ .building → s.buildPending r.map = false →
      r.params.valid = true → Move i s (s.addRequest r)
  /-- A request leaves the list by an abort (R106). -/
  | unrequest (m : MapId) : Move i s ((s.dropRequest m).wakeMap m)
  /-- A build starts (R98). -/
  | enter (r : BuildRequest) : s.engine.state = .idle → r ∈ s.engine.requests →
      s.startable r = true → Move i s (s.enterBuilding r)
  /-- A build starts without an eligible entry (R99). -/
  | fail (r : BuildRequest) : s.engine.state = .idle → r ∈ s.engine.requests →
      s.startable r = true → Move i s (failedStart s r)
  /-- A cell is written that is not the last (R101). -/
  | cell (c : Cell) : s.engine.state = .building →
      (s.map s.engine.current).params.searchCell
        (s.bank (s.map s.engine.current).params.source).entries s.engine.progress = some c →
      s.engine.progress + 1 < (s.map s.engine.current).params.cellCount →
      Move i s (s.writeCell s.engine.current c)
  /-- The last cell is written (R102). -/
  | finish (c : Cell) : s.engine.state = .building →
      (s.map s.engine.current).params.searchCell
        (s.bank (s.map s.engine.current).params.source).entries s.engine.progress = some c →
      (s.map s.engine.current).params.cellCount ≤ s.engine.progress + 1 →
      Move i s (finished s s.engine.current c)
  /-- A build is aborted (R105). -/
  | abort (m : MapId) : (s.map m).state = .building → Move i s (aborted s m)
  /-- Update records are staged or discarded. -/
  | stage (l : List UpdateRecord) : StageMove s.uq l → Move i s (s.withRecords l)
  /-- CLOSED records of the bank are sealed (R43). -/
  | sealRecords (b : BankId) (n : Bool) : i = .stgCmdSeal b n →
      (∃ r ∈ s.uq.records, r.bank = b ∧ r.state = .closed) → Move i s (afterSeal s b n)
  /-- A bank's commit is taken (R53): of a PENDING bank without holds, which has the display role
  only at a frame start, or of a DEFERRED bank. -/
  | commit (b : BankId) : (s.uq.asksNotice b = true → s.eq.hasRoom .routine = true) →
      (s.commitOf b = .pending ∧ (s.bank b).holders = 0 ∧
          (s.hasRole b = false ∨ i = .frameStart) ∨ s.commitOf b = .deferred) →
            Move i s (s.commit b)
  /-- A bank's commit is put off (R54). -/
  | defer (b : BankId) : s.commitOf b = .pending → (s.bank b).holders = 0 → s.hasRole b = false →
      Move i s (s.setCommit b .deferred)
  /-- An accepted direct write (R27). -/
  | write (b : BankId) (v : Word) : i = .apDataWrite v → s.port.target = .bank b →
      s.acceptsWrite b = true → Move i s (s.directWrite b s.port.index (Entry.ofWord v))
  /-- The port moves. -/
  | port (p : AccessPort) : PortMove s p → Move i s (s.withPort p)
  /-- The soft reset (R180). -/
  | softReset : endsClaim i = true → clearsHostFaults i = true → Move i s s.softReset
  /-- The full reset (R181). -/
  | fullReset : i = .fullReset → Move i s s.fullReset

/-- Several moves, one after the other. -/
abbrev Moves (i : Instr) : State → State → Prop := Relation.ReflTransGen (Move i)

theorem Moves.refl {i : Instr} (s : State) : Moves i s s := Relation.ReflTransGen.refl

theorem Moves.trans {i : Instr} {s t u : State} (h : Moves i s t) (h' : Moves i t u) :
    Moves i s u :=
  Relation.ReflTransGen.trans h h'

theorem Move.chain {i : Instr} {s t : State} (h : Move i s t) : Moves i s t :=
  Relation.ReflTransGen.single h

/-- A law that every move keeps is kept by every chain of them. -/
theorem Moves.keep {i : Instr} {P : State → Prop} (hmove : ∀ s t, P s → Move i s t → P t)
    {s t : State}
    (h : Moves i s t) (hs : P s) : P t := by
  induction h with
  | refl => exact hs
  | tail _ hlast ih => exact hmove _ _ ih hlast

/-! ## The shared operations as chains -/

section
variable {i : Instr} {s : State}

theorem setCommit_self (s : State) (b : BankId) : s.setCommit b (s.commitOf b) = s := by
  rw [State.setCommit, State.commitOf, PerBank.set_get]

/-- An attempt at the commit of a bank that has reached its commit point (R54). -/
theorem attemptCommit_moves {b : BankId} (hpending : s.commitOf b = .pending)
    (hholders : (s.bank b).holders = 0) (hrole : s.hasRole b = false ∨ i = .frameStart) :
    Moves i s (s.attemptCommit b) := by
  obtain ⟨-, h⟩ | ⟨hroom, h⟩ := s.attemptCommit_cases b
  · rw [h]
    cases hshown : s.hasRole b with
    | true =>
      rw [if_pos rfl, ← hpending, setCommit_self]
    | false => exact (Move.defer b hpending hholders hshown).chain
  · rw [h]
    refine (Move.commit b (fun hasks => ?_) (.inl ⟨hpending, hholders, hrole⟩)).chain
    by_contra hfull
    exact hroom ⟨hasks, Bool.eq_false_iff.2 hfull⟩

theorem judgeBank_moves (b : BankId) : Moves i s (s.judgeBank b) := by
  obtain ⟨-, h⟩ | ⟨⟨hpending, hholders, hrole⟩, h⟩ := s.judgeBank_cases b
  · rw [h]
  · rw [h]
    exact attemptCommit_moves hpending hholders (.inl hrole)

theorem judgeDisplay_moves (hi : i = .frameStart) (b : BankId) : Moves i s (s.judgeDisplay b) := by
  obtain ⟨-, h⟩ | ⟨⟨hpending, hholders⟩, h⟩ := s.judgeDisplay_cases b
  · rw [h]
  · rw [h]
    exact attemptCommit_moves hpending hholders (.inr hi)

/-- A channel leaves RUN and its holds are released (R17, R84). -/
theorem leave_moves {c : Chan} {y : Channel} (hrun : (s.chan c).state = .run)
    (h : ChanLeave s c (s.chan c) y) : Moves i s ((s.setChan c y).releaseHolds (s.chan c).ctx) := by
  have hleave := (Move.leave (i := i) c y hrun h).chain
  rw [releaseHolds_eq_judge]
  split
  · exact hleave.trans (judgeBank_moves _)
  · exact hleave

theorem faultJob_moves {c : Chan} (hjob : (s.chan c).state.hasJob = true) (f : FaultCode) :
    Moves i s (s.faultJob c f) := by
  obtain ⟨hnot, h⟩ | ⟨hrun, h⟩ := s.faultJob_cases c f
  · rw [h]
    exact (Move.chan c _ (.fault f hnot hjob)).chain
  · rw [h]
    exact leave_moves hrun (.fault f)

theorem startBuild_moves {r : BuildRequest} (hidle : s.engine.state = .idle)
    (hmem : r ∈ s.engine.requests) (hstart : s.startable r = true) :
    Moves i s (s.startBuild r) := by
  rw [startBuild_eq]
  split
  · rw [noCandidates_enterBuilding ((startable_iff s r).1 hstart).2]
    exact (Move.fail r hidle hmem hstart).chain
  · exact (Move.enter r hidle hmem hstart).chain

theorem lookForBuild_moves : Moves i s s.lookForBuild := by
  obtain h | ⟨r, hmem, hidle, hstart, h⟩ := s.lookForBuild_cases
  · rw [h]
  · rw [h]
    exact startBuild_moves hidle hmem hstart

/-- A chain that ends with the engine's look. -/
theorem Moves.look {t : State} (h : Moves i s t) : Moves i s t.lookForBuild :=
  h.trans lookForBuild_moves

end

/-! ## The end of a build: the engine's POST and the bank's commit do not meet -/

section
variable (s : State) (r : EventRecord)

theorem noticeMap_enginePosts (b : BankId) (m : MapId) :
    (s.enginePosts r).noticeMap b m = (s.noticeMap b m).enginePosts r := by
  have hnoticed : (s.enginePosts r).noticed b m = s.noticed b m := rfl
  have hplaces : (s.enginePosts r).placesRequest b m = s.placesRequest b m := rfl
  unfold State.noticeMap
  rw [hnoticed, hplaces]
  cases s.noticed b m <;> cases s.placesRequest b m <;> rfl

theorem noticeMaps_enginePosts (b : BankId) :
    (s.enginePosts r).noticeMaps b = (s.noticeMaps b).enginePosts r := by
  have hplaces (m : MapId) : (s.enginePosts r).placesRequest b m = s.placesRequest b m := rfl
  have hcount : { s.enginePosts r with freeCount := s.freeCount + 1 } =
      State.enginePosts { s with freeCount := s.freeCount + 1 } r := rfl
  unfold State.noticeMaps
  rw [hplaces, hplaces, State.enginePosts_freeCount, hcount]
  simp only [noticeMap_enginePosts]
  cases s.placesRequest b .m0 && s.placesRequest b .m1 with
  | false => rfl
  | true => cases Config.secondMapFirst s.freeCount <;> rfl

theorem notice_enginePosts (b : BankId) :
    (s.enginePosts r).notice b = (s.notice b).enginePosts r := by
  rw [State.notice, State.notice, noticeMaps_enginePosts, State.invalidate_spec,
    State.invalidate_spec]
  rfl

theorem commit_enginePosts (b : BankId) :
    (s.enginePosts r).commit b = (s.commit b).enginePosts r := by
  have hcommitted : committed (s.enginePosts r) b = (committed s b).enginePosts r := rfl
  rw [commit_eq, commit_eq, hcommitted, notice_enginePosts]
  rfl

theorem attemptCommit_enginePosts (b : BankId) :
    (s.enginePosts r).attemptCommit b = (s.attemptCommit b).enginePosts r := by
  unfold State.attemptCommit
  rw [commit_enginePosts, State.enginePosts_uq, State.enginePosts_eq]
  cases s.uq.asksNotice b && !s.eq.hasRoom .routine <;> rfl

theorem judgeBank_enginePosts (b : BankId) :
    (s.enginePosts r).judgeBank b = (s.judgeBank b).enginePosts r := by
  by_cases h : s.commitOf b = .pending ∧ (s.bank b).holders = 0 ∧ s.hasRole b = false
  · rw [State.judgeBank, State.judgeBank, if_pos h]
    exact (if_pos h).trans (attemptCommit_enginePosts s r b)
  · rw [State.judgeBank, State.judgeBank, if_neg h]
    exact if_neg h

end

theorem completeBuild_eq_judge (s : State) (m : MapId) (c : Cell) :
    (s.writeCell m c).completeBuild m = (finished s m c).judgeBank (s.map m).params.source := by
  have hmap : (s.writeCell m c).map m = { s.map m with cells := (s.map m).cells ++ [c] } := by
    rw [State.writeCell, State.map, State.invalidate_maps]
    exact PerMap.get_set_same _ _ _
  have hbank (b : BankId) : (s.writeCell m c).bank b = s.bank b := by
    rw [State.writeCell, State.bank, State.invalidate_banks]
    rfl
  rw [State.completeBuild, State.releaseBank, hmap]
  dsimp only
  rw [← judgeBank_enginePosts, hbank]
  rfl

theorem abortBuild_eq_judge (s : State) (m : MapId) :
    s.abortBuild m = (aborted s m).judgeBank (s.map m).params.source := by
  rw [State.abortBuild, State.releaseBank, emptyMap_eq, aborted, State.invalidate_spec]
  rfl

end Sys2Proof.Proofs
end

section
/-! PROOFS. What each command does, as a chain of moves: one lemma for each command that does more
than set flags and read data, and `exec_moves` over all of them. -/

namespace Sys2Proof.Proofs

open Sys2Proof Sys2Proof.Machine Sys2Proof.Safety

/-! ## Flags and read data -/

/-- Setting a flag leaves every other flag (R178). -/
theorem flagged_flag (s : State) (f g : HostFault) :
    (s.flag f).flagged g = (s.flagged g || decide (g = f)) := by
  have hmask : f.mask.getLsbD g.bit = decide (g = f) := by cases f <;> cases g <;> decide
  rw [State.flagged, State.flag, BitVec.getLsbD_or, hmask, State.flagged]

section
variable {i : Instr} {s t : State}

/-- Enables, read data and the free counter are no part of any law. -/
theorem book_moves (en : IrqEnables) (bus : Bus) (n : Nat) :
    Moves i s { s with enables := en, bus := bus, freeCount := n } :=
  Move.chain (.book _ rfl id fun _ _ h => h)

theorem flag_moves (f : HostFault) : Moves i s (s.flag f) :=
  Move.chain (.book _ rfl id fun _ g hset => by rw [flagged_flag, hset, Bool.true_or])

theorem returns_moves (v : Word) : Moves i s (s.returns v) := book_moves _ _ _

theorem Moves.returns (h : Moves i s t) (v : Word) : Moves i s (t.returns v) :=
  h.trans (returns_moves v)

theorem badAccess_moves (write : Bool) : Moves i s (s.badAccess write) := by
  cases write with
  | true => exact flag_moves _
  | false => exact (flag_moves _).returns 0

/-- A host access is nothing while a read is stretched, and its effect otherwise. -/
theorem onBus_moves {f : State → State} (h : onBus s f = .next t) (hf : Moves i s (f s)) :
    Moves i s t := by
  obtain rfl | rfl := onBus_next_cases h
  · exact Moves.refl _
  · exact hf

/-- What happens only under a condition is a chain all the same. -/
theorem Moves.whenever {p : Prop} [Decidable p] (h : Moves i s t) :
    Moves i s (if p then t else s) := by
  split
  · exact h
  · exact Moves.refl s

theorem eq_of_next {u : State} (h : (.next u : Result) = .next t) : t = u :=
  (Host.Outcome.next.inj h).symm

/-! ## The window (chapter 11) -/

theorem writePlain_moves (r : PlainReg) (v : Word) : Moves i s (s.writePlain r v) := by
  cases r with
  | bldReq0 | bldReq1 => exact Move.chain (.engine _ rfl rfl rfl rfl)
  | jobCount c => exact Move.chain (.chan c _ (.registers _ (s.chan c).jobWidth))
  | jobWidth c => exact Move.chain (.chan c _ (.registers (s.chan c).jobCount _))

theorem hostFaults_moves (hi : clearsHostFaults i = true) (x : BitVec 10) :
    Moves i s { s with hostFaults := x } :=
  Move.chain (.book _ rfl id fun hkeeps => by simp [hi] at hkeeps)

theorem tickDiv_moves {x : BitVec 16} (hx : x ≠ 0) (n : Nat) :
    Moves i s { s with timebase := { div := x, count := n } } :=
  Move.chain (.book _ rfl (fun _ => hx) fun _ _ h => h)

theorem enableScanout_moves : Moves i s s.enableScanout := by
  unfold State.enableScanout
  split
  · exact Move.chain (.darken .armed (by decide))
  · exact Moves.refl s
  · exact Moves.refl s

theorem disableScanout_moves : Moves i s s.disableScanout := by
  have hoff : Moves i s { s with scanout := { s.scanout with state := .off } } :=
    Move.chain (.darken .off (by decide))
  unfold State.disableScanout
  split
  · exact Moves.refl s
  · exact hoff
  · exact (hoff.trans (judgeBank_moves _)).look

theorem writeEngCtrl_moves {reset : Bool}
    (hends : reset = true → endsClaim i = true) (hclears : reset = true → clearsHostFaults i = true)
    (e : Bool) (en : IrqEnables) :
    Moves i s (s.writeEngCtrl reset e en) := by
  have hreset : Moves i s (if reset then s.softReset else s) := by
    split
    next h => exact Move.chain (.softReset (hends h) (hclears h))
    next => exact Moves.refl s
  unfold State.writeEngCtrl
  generalize (if reset then s.softReset else s) = u at hreset
  have hset : Moves i s { u with enables := en } := hreset.trans (book_moves en u.bus u.freeCount)
  cases e with
  | true => exact hset.trans enableScanout_moves
  | false => exact hset.trans disableScanout_moves

/-! ## Ticks (R182) -/

theorem eqTick_moves : Moves i s (s.withEq s.eq.tick) := by
  have hidle : s.eq.routine = [] → s.eq.tick = s.eq := fun h => by
    simp [EventQueue.tick, EventQueue.coalescing, h]
  have hfields : s.eq.tick.urgent = s.eq.urgent ∧ s.eq.tick.routine = s.eq.routine ∧
      s.eq.tick.claim = s.eq.claim ∧ s.eq.tick.threshold = s.eq.threshold := by
    unfold EventQueue.tick
    split <;> exact ⟨rfl, rfl, rfl, rfl⟩
  obtain ⟨hurgent, hroutine, hclaim, hthreshold⟩ := hfields
  exact Move.chain (.settings _ hurgent hroutine hclaim (fun h hzero => by rwa [hidle h])
    (by rw [hthreshold]; exact id))

/-- A stall timer runs in RUN only (R126). -/
theorem hasJob_of_expiring {c : Chan} (h : s.expiring c = true) :
    (s.chan c).state.hasJob = true := by
  simp only [State.expiring, State.stalling, State.blocked, Bool.and_eq_true,
    decide_eq_true_eq] at h
  obtain ⟨⟨⟨hrun, -⟩, -⟩, -⟩ := h
  rw [hrun]
  rfl

theorem stallTick_moves (c : Chan) : Moves i s (s.stallTick c) := by
  unfold State.stallTick
  split
  next hexpires => exact faultJob_moves (hasJob_of_expiring hexpires) .stalled
  · split
    · exact Move.chain (.chan c _ (.stall _))
    · exact Moves.refl s

theorem stallTicks_moves (l : List Chan) : ∀ s : State, Moves i s (s.stallTicks l) := by
  induction l with
  | nil => exact fun s => Moves.refl s
  | cons c rest ih => exact fun s => (stallTick_moves c).trans (ih (s.stallTick c))

theorem tickChannels_moves : Moves i s s.tickChannels := by
  unfold State.tickChannels
  split
  · exact (book_moves s.enables s.bus (s.freeCount + 1)).trans (stallTicks_moves _ _)
  · exact stallTicks_moves _ s

/-- The timebase's count is no part of any law. -/
theorem count_moves (n : Nat) : Moves i s { s with timebase := { s.timebase with count := n } } :=
  Move.chain (.book _ rfl id fun _ _ h => h)

theorem tick_moves : Moves i s s.tick := by
  have htimers : Moves i s
      { s with timebase := { s.timebase with count := 0 }, eq := s.eq.tick } :=
    (count_moves 0).trans
      (eqTick_moves (s := { s with timebase := { s.timebase with count := 0 } }))
  exact (htimers.trans tickChannels_moves).look

theorem overdue_moves : Moves i s
    (if s.eq.tick.overdue = true ∧ s.eq.overdue = false then { s with eq := s.eq.tick } else s) :=
  eqTick_moves.whenever

/-! ## The scanout port (chapter 9) -/

theorem countFrame_moves : Moves i s s.countFrame := Move.chain (.display _ rfl rfl)

theorem frameStart_moves (h : exec .frameStart s = .next t) : Moves .frameStart s t := by
  have hshow : Moves .frameStart s s.countFrame.showNext :=
    countFrame_moves.tail (.showNext rfl)
  simp only [exec, execFrameStart] at h
  split at h
  · rw [eq_of_next h]
    exact countFrame_moves
  · rw [eq_of_next h]
    exact (hshow.trans (judgeDisplay_moves rfl _)).look
  · split at h
    · rw [eq_of_next h]
      exact (countFrame_moves.trans (judgeDisplay_moves rfl _)).look
    · rw [eq_of_next h]
      exact ((hshow.trans (judgeBank_moves _)).trans (judgeDisplay_moves rfl _)).look

/-! ## The event queue (chapter 10) -/

theorem claim_moves : Moves i s (s.withEq s.eq.claimFront) := Move.claim.chain

theorem eqCtrl_moves {x : BitVec 5} (h : ¬(x = 0 ∨ Config.maxRoutine < x.toNat)) (y : Byte) :
    Moves i s (s.withEq { s.eq with threshold := x, timeout := y }) := by
  obtain ⟨hzero, hmax⟩ := not_or.1 h
  have hle : x.toNat ≤ 24 := Nat.not_lt.1 hmax
  have hpos : x.toNat ≠ 0 := fun hx => hzero (BitVec.eq_of_toNat_eq hx)
  exact Move.chain (.settings _ rfl rfl rfl (fun _ hz => hz)
    fun _ => ⟨Nat.pos_of_ne_zero hpos, hle⟩)

theorem eqNext_moves : Moves .eqNext s (s.withEq s.eq.removeClaimed.claimFront) :=
  (Move.unclaim rfl).chain.trans (claim_moves (s := s.withEq s.eq.removeClaimed))

theorem serve_enginePost_moves {r : EventRecord} (hpost : s.engine.state = .post r)
    (hroom : s.eq.hasRoom r.cls = true) : Moves i s (s.serve (.enginePost r)) :=
  Moves.look ((Move.insert r hroom).chain.tail (.unpost r hpost))

theorem serve_abortSlot_moves {r : EventRecord} (hroom : s.eq.hasRoom r.cls = true) :
    Moves i s (s.serve (.abortSlot r)) :=
  (Move.insert r hroom).chain.tail (.engine _ rfl rfl rfl rfl)

theorem serve_channel_moves {c : Chan} {r : EventRecord} (hpost : (s.chan c).state = .post r)
    (hroom : s.eq.hasRoom r.cls = true) : Moves i s (s.serve (.channel c r)) :=
  ((Move.insert r hroom).chain.tail (.chan c _ (.posted r hpost))).tail
    (.settings _ rfl rfl rfl (fun _ hz => hz) id)

theorem serve_deferred_moves {b : BankId} (hdeferred : s.commitOf b = .deferred)
    (hroom : s.eq.hasRoom .routine = true) : Moves i s (s.serve (.deferred b)) :=
  (Move.commit b (fun _ => hroom) (.inr hdeferred)).chain.look

/-- What a waiting poster is (R169). -/
theorem mem_posters {p : Poster} (h : p ∈ s.posters) :
    (∃ r, p = .enginePost r ∧ s.engine.state = .post r) ∨
      (∃ r, p = .abortSlot r ∧ s.engine.abortSlot = some r) ∨
      (∃ c r, p = .channel c r ∧ (s.chan c).state = .post r) ∨
      ∃ b, p = .deferred b ∧ s.commitOf b = .deferred := by
  have hengine : p ∈ s.enginePoster → ∃ r, p = .enginePost r ∧ s.engine.state = .post r := by
    unfold State.enginePoster
    split <;> simp_all
  have hslot : p ∈ s.slotPoster → ∃ r, p = .abortSlot r ∧ s.engine.abortSlot = some r := by
    unfold State.slotPoster
    split <;> simp_all
  have hchan (c : Chan) :
    p ∈ s.chanPoster c → ∃ r, p = .channel c r ∧ (s.chan c).state = .post r := by
    unfold State.chanPoster
    split <;> simp_all
  have hbank (b : BankId) : p ∈ s.bankPoster b → p = .deferred b ∧ s.commitOf b = .deferred := by
    unfold State.bankPoster
    split <;> simp_all
  rw [State.posters, List.mem_append, List.mem_append, List.mem_append, List.mem_flatMap,
    List.mem_flatMap] at h
  obtain ((h | h) | ⟨c, -, h⟩) | ⟨b, -, h⟩ := h
  · exact .inl (hengine h)
  · exact .inr (.inl (hslot h))
  · exact .inr (.inr (.inl ⟨c, hchan c h⟩))
  · exact .inr (.inr (.inr ⟨b, hbank b h⟩))

theorem insertionEvent_moves (h : exec .insertionEvent s = .next t) : Moves i s t := by
  simp only [exec, execInsertionEvent] at h
  split at h
  next p hp =>
    rw [eq_of_next h]
    have hroom : s.eq.hasRoom p.cls = true :=
      List.find?_some (p := fun q : Poster => s.eq.hasRoom q.cls) hp
    obtain ⟨r, rfl, hpost⟩ | ⟨r, rfl, -⟩ | ⟨c, r, rfl, hpost⟩ | ⟨b, rfl, hdeferred⟩ :=
      mem_posters (List.mem_of_find?_eq_some hp)
    · exact serve_enginePost_moves hpost hroom
    · exact serve_abortSlot_moves hroom
    · exact serve_channel_moves hpost hroom
    · exact serve_deferred_moves hdeferred hroom
  next => rw [eq_of_next h]

/-! ## The update queue (chapter 3) -/

theorem openRecord_moves {h : StgHeader} (hnone : s.uq.openRecord = none) :
    Moves i s (s.openRecord h) := by
  unfold State.openRecord
  split
  · exact flag_moves _
  next hok => exact Move.chain (.stage _ (.header h (Bool.eq_false_iff.2 hok) hnone))

theorem withoutOpen_openRecord (q : UpdateQueue) :
    ({ q with records := q.withoutOpen } : UpdateQueue).openRecord = none := by
  simp [UpdateQueue.openRecord, UpdateQueue.withoutOpen]

theorem stgHdr_moves (h : StgHeader) : Moves i s
    (if s.uq.openRecord = none then s.openRecord h
      else ((s.withRecords s.uq.withoutOpen).flag .stageRefused).openRecord h) := by
  split
  next hnone => exact openRecord_moves hnone
  next =>
    exact ((Move.stage (s := s) _ .dropOpen).chain.trans (flag_moves _)).trans
      (openRecord_moves (withoutOpen_openRecord s.uq))

theorem stgData_moves (e : Entry) : Moves i s
    (if s.uq.openRecord = none then s.flag .stageRefused
      else s.withRecords (s.uq.records.map fun r => r.append e)) := by
  split
  · exact flag_moves _
  · exact Move.chain (.stage _ (.colour e))

theorem stgCmdSeal_moves {b : BankId} {n : Bool} (h : exec (.stgCmdSeal b n) s = .next t) :
    Moves (.stgCmdSeal b n) s t := by
  cases hfree : s.port.stretched with
  | true =>
    rw [exec, execStgCmdSeal, onBus_of_stretched _ hfree] at h
    rw [eq_of_next h]
  | false =>
    by_cases hclosed : ∃ r ∈ s.uq.records, r.bank = b ∧ r.state = .closed
    · rw [exec_stgCmdSeal_of_closed hfree hclosed] at h
      rw [eq_of_next h]
      exact ((Move.sealRecords b n rfl hclosed).chain.trans (judgeBank_moves b)).look
    · rw [exec_stgCmdSeal_of_none_closed hfree (by simpa using hclosed)] at h
      rw [eq_of_next h]

/-! ## The access port (chapter 4) -/

theorem port_moves {p : AccessPort} (h : PortMove s p) : Moves i s (s.withPort p) :=
  Move.chain (.port p h)

theorem apAddr_moves (v : Word) : Moves i s
    (match apAddress v with
      | none => s.flag .accessRefused
      | some (t, i) =>
        s.withPort
          { target := t, index := i, items := [], filling := true, stretched := false }) := by
  split
  · exact flag_moves _
  next x n h =>
    have hin : n < x.positions := by
      unfold apAddress at h
      split at h
      · simp at h
      · split at h
        · simp_all
        · simp at h
    exact port_moves (.address x n hin)

theorem apDataRead_moves : Moves i s
    (match s.port.items with
      | x :: _ => (s.withPort s.port.advance).returns x
      | [] => s.withPort { s.port with filling := true, stretched := true }) := by
  split
  · exact (port_moves .advance).returns _
  next h => exact port_moves (.stretch h)

theorem apDataWrite_moves {v : Word} (h : execApDataWrite v s = .next t) :
    Moves (.apDataWrite v) s t := by
  have hrefused : Moves (.apDataWrite v) s ((s.withPort s.port.advance).flag .accessRefused) :=
    (port_moves .advance).trans (flag_moves _)
  refine onBus_moves h ?_
  dsimp only
  split
  next b htarget =>
    split
    next hok =>
      exact ((Move.write b v rfl htarget hok).chain.trans (port_moves .advance)).look
    next => exact hrefused
  next => exact hrefused

theorem fetchCompletion_moves (h : exec .fetchCompletion s = .next t) : Moves i s t := by
  simp only [exec, execFetchCompletion] at h
  split at h
  · rw [eq_of_next h]
  next hfilling =>
    split at h
    next hanswer =>
      rw [eq_of_next h]
      exact (port_moves (.answer hanswer.2)).returns _
    next hfetch =>
      rw [eq_of_next h]
      exact port_moves (.fetch (Bool.eq_true_of_not_eq_false hfilling) hfetch)

/-! ## The build engine (chapter 6) -/

theorem bldCmdRequest_moves : Moves i s
    (if s.refusesBuild s.engine.regs.map s.engine.regs.params then s.flag .buildRefused
      else (s.addRequest
        { map := s.engine.regs.map, params := s.engine.regs.params }).lookForBuild) := by
  split
  · exact flag_moves _
  next h =>
    simp only [State.refusesBuild, Bool.not_eq_true, Bool.or_eq_false_iff, decide_eq_false_iff_not,
      Bool.not_eq_false'] at h
    obtain ⟨⟨hbuilding, hpending⟩, hvalid⟩ := h
    exact (Move.request { map := s.engine.regs.map, params := s.engine.regs.params } hbuilding
      hpending hvalid).chain.look

/-- The record of an aborted request does not meet the request's removal. -/
theorem slotRecord_dropRequest (s : State) (m : MapId) (r : EventRecord) :
    (s.dropRequest m).slotRecord r = (s.slotRecord r).dropRequest m := by
  unfold State.slotRecord
  have hroom : (s.dropRequest m).eq.hasRoom r.cls = s.eq.hasRoom r.cls := rfl
  rw [hroom]
  cases s.eq.hasRoom r.cls <;> rfl

theorem slotRecord_moves (r : EventRecord) : Moves i s (s.slotRecord r) := by
  unfold State.slotRecord
  split
  next hroom => exact Move.chain (.insert r hroom)
  next => exact Move.chain (.engine _ rfl rfl rfl rfl)

theorem bldCmdAbort_moves (m : MapId) : Moves i s
    (if (s.map m).state = .building then s.abortBuild m
      else if s.buildPending m = true ∧ s.engine.abortSlot = none then
        ((s.dropRequest m).slotRecord (buildFault m .aborted)).wakeMap m
      else s.flag .cmdIgnored) := by
  split
  next hbuilding =>
    rw [abortBuild_eq_judge]
    exact (Move.abort m hbuilding).chain.trans (judgeBank_moves _)
  next =>
    split
    · rw [slotRecord_dropRequest]
      exact (slotRecord_moves _).tail (.unrequest m)
    · exact flag_moves _

theorem cellCompletion_moves (h : exec .cellCompletion s = .next t) : Moves i s t := by
  simp only [exec, execCellCompletion] at h
  split at h
  · rw [eq_of_next h]
  · rw [eq_of_next h]
  next hbuilding =>
    split at h
    · rw [eq_of_next h]
    next c hc =>
      split at h
      next hlast =>
        rw [eq_of_next h, completeBuild_eq_judge]
        exact (Move.finish c hbuilding hc hlast).chain.trans (judgeBank_moves _)
      next hlast =>
        rw [eq_of_next h]
        exact Move.chain (.cell c hbuilding hc (Nat.not_le.1 hlast))

/-! ## The channels (chapters 7 and 8) -/

theorem ctxWrite_moves (c : Chan) (r : CtxReg) (v : Word) : Moves i s
    (if (s.chan c).state.hasJob then s.flag .settingRefused
      else
        match (s.chan c).ctx.withReg r v with
        | none => s.flag .settingRefused
        | some x => s.setChan c { s.chan c with ctx := x }) := by
  split
  · exact flag_moves _
  next hjob =>
    split
    · exact flag_moves _
    · exact Move.chain (.chan c _ (.context _ (Bool.eq_false_iff.2 hjob)))

theorem jobPush_moves (c : Chan) (j : Job) : Moves i s
    (if j.valid = true ∧ (s.chan c).jobs.length < Config.maxJobs
      then s.setChan c ((s.chan c).push j) else s.flag .jobRefused) := by
  split
  next h => exact Move.chain (.chan c _ (.push j h.1 h.2))
  next => exact flag_moves _

theorem segmentStartAttempt_moves {c : Chan} (h : exec (.segmentStartAttempt c) s = .next t) :
    Moves (.segmentStartAttempt c) s t := by
  simp only [exec, execSegmentStartAttempt] at h
  split at h
  next hdue =>
    rw [eq_of_next h]
    by_cases hbank : s.bankHoldsBack (s.chan c).ctx = true
    · rw [attemptSegment_of_bankHoldsBack hbank]
      exact Move.chain (.chan c _ (.waitBank hdue hbank))
    by_cases hmap : s.mapHoldsBack (s.chan c).ctx = true
    · rw [attemptSegment_of_mapHoldsBack hbank hmap]
      exact Move.chain (.chan c _ (.waitMap hdue hmap))
    by_cases hunusable : s.mapUnusable (s.chan c).ctx = true
    · rw [attemptSegment_of_mapUnusable hbank hmap hunusable]
      exact faultJob_moves (by rw [hdue]; rfl) .mapUnusable
    · rw [attemptSegment_of_startable hbank hmap hunusable]
      exact Move.chain (.start c rfl hdue (Bool.eq_false_iff.2 hbank) (Bool.eq_false_iff.2 hmap))
  next => rw [eq_of_next h]

/-- A pixel step is taken in RUN only. -/
theorem run_of_pixelReady {c : Chan} {p : Job × PixelResult} (h : s.pixelReady c = some p) :
    (s.chan c).state = .run := by
  by_contra hrun
  simp only [State.pixelReady, hrun, if_false] at h
  split at h <;> simp at h

theorem takePixel_moves {c : Chan} {job : Job} {r : PixelResult}
    (h : s.pixelReady c = some (job, r)) : Moves i s (s.takePixel c job r) := by
  have hrun := run_of_pixelReady h
  unfold State.takePixel
  dsimp only
  split
  next hjob => exact (leave_moves hrun (.jobEnd job r h hjob)).look
  next hjob =>
    split
    next hseg => exact (leave_moves hrun (.segmentEnd job r _ h hjob hseg)).look
    next hseg => exact Move.chain (.chan c _ (.pixel job r h hjob hseg))

theorem pixelStep_moves {c : Chan} (h : exec (.pixelStep c) s = .next t) : Moves i s t := by
  simp only [exec, execPixelStep] at h
  split at h
  next job r hready =>
    rw [eq_of_next h]
    exact takePixel_moves hready
  next => rw [eq_of_next h]

theorem hasJob_of_working {w : ChanState} (h : w.working = true) : w.hasJob = true := by
  cases w <;> simp_all [ChanState.working, ChanState.hasJob]

theorem chIn_moves (c : Chan) (v : Word) (h : execChIn c v s = .next t) : Moves i s t := by
  refine onBus_moves h ?_
  dsimp only
  split
  next hroom =>
    split
    · exact Move.chain (.chan c _ (.input v hroom))
    · exact flag_moves _
  next =>
    split
    next hworks => exact (faultJob_moves (hasJob_of_working hworks) .overrun).look
    next => exact flag_moves _

theorem chOut_moves (c : Chan) (h : execChOut c s = .next t) : Moves i s t := by
  refine onBus_moves h ?_
  dsimp only
  split
  · exact (flag_moves _).returns 0
  next w rest hout => exact (Move.chan c _ (.output _ hout)).chain.returns w

theorem chCmdAbort_moves (c : Chan) : Moves i s
    (if (s.chan c).state.working then (s.faultJob c .aborted).lookForBuild
      else s.flag .cmdIgnored) := by
  split
  next hworks => exact (faultJob_moves (hasJob_of_working hworks) .aborted).look
  next => exact flag_moves _

theorem chCmdResume_moves (c : Chan) : Moves i s
    (if (s.chan c).state = .halted then s.setChan c (s.chan c).nextJob
      else s.flag .cmdIgnored) := by
  split
  next h => exact Move.chain (.chan c _ (.resume h))
  next => exact flag_moves _

theorem chCmdReset_moves (c : Chan) (h : execChCmdReset c s = .next t) : Moves i s t := by
  refine onBus_moves h ?_
  dsimp only
  split
  next hrun => exact (leave_moves hrun .reset).look
  next hrun => exact Move.chain (.chan c _ (.reset hrun))

end

/-! ## Every command -/

/-- Whatever a command does is a chain of moves. -/
theorem exec_moves {i : Instr} {s t : State} (h : exec i s = .next t) : Moves i s t := by
  unfold exec at h
  cases i with
  | fullReset => exact eq_of_next h ▸ Move.chain (.fullReset rfl)
  | frameStart => exact frameStart_moves h
  | lookup x => exact eq_of_next h ▸ book_moves _ _ _
  | tick => exact eq_of_next h ▸ tick_moves
  | stalled c =>
    rw [eq_of_next h]
    split
    next hexpires => exact (faultJob_moves (hasJob_of_expiring hexpires) .stalled).look
    next => exact Moves.refl s
  | overdue => exact eq_of_next h ▸ overdue_moves
  | invalidAccess write width offset => exact onBus_moves h (badAccess_moves write).whenever
  | wrongTypeAccess write r => exact onBus_moves h (badAccess_moves write).whenever
  | registerWrite r v => exact onBus_moves h (writePlain_moves r v)
  | softReset e en => exact onBus_moves h (writeEngCtrl_moves (fun _ => rfl) (fun _ => rfl) e en)
  | scanoutEnable r en =>
    exact onBus_moves h (writeEngCtrl_moves (i := .scanoutEnable r en) id id true en)
  | scanoutDisable r en =>
    exact onBus_moves h (writeEngCtrl_moves (i := .scanoutDisable r en) id id false en)
  | interruptEnables r e en =>
    exact onBus_moves h (writeEngCtrl_moves (i := .interruptEnables r e en) id id e en)
  | hostFaults v => exact onBus_moves h (hostFaults_moves rfl _)
  | tickDiv v =>
    refine onBus_moves h ?_
    split
    · exact flag_moves _
    next hdiv => exact tickDiv_moves hdiv 0
  | eqHead0 => exact onBus_moves h (claim_moves.returns _)
  | eqHead1 => exact onBus_moves h (claim_moves.returns _)
  | eqNext => exact onBus_moves h (eqNext_moves.returns _)
  | eqPop v =>
    refine onBus_moves h ?_
    split
    · exact flag_moves _
    · exact Move.chain (.unclaim rfl)
  | eqCtrl v =>
    refine onBus_moves h ?_
    split
    · exact flag_moves _
    next hok => exact eqCtrl_moves hok _
  | insertionEvent => exact insertionEvent_moves h
  | stgHdr v => exact onBus_moves h (stgHdr_moves _)
  | stgData v => exact onBus_moves h (stgData_moves _)
  | stgCmdSeal b n => exact stgCmdSeal_moves h
  | stgCmdDiscard b => exact onBus_moves h (Move.chain (.stage _ (.discard b)))
  | stgCmdIgnored code => exact onBus_moves h (flag_moves _)
  | apAddr v => exact onBus_moves h (apAddr_moves v)
  | apDataRead => exact onBus_moves h apDataRead_moves
  | apDataWrite v => exact apDataWrite_moves h
  | fetchCompletion => exact fetchCompletion_moves h
  | scnCtrl v =>
    exact onBus_moves h
      (Move.chain (.display { s.scanout with next := BankId.ofCode (fieldAt v 0 2) } rfl rfl))
  | bldCmdRequest => exact onBus_moves h bldCmdRequest_moves
  | bldCmdAbort m => exact onBus_moves h (bldCmdAbort_moves m)
  | bldCmdIgnored code => exact onBus_moves h (flag_moves _)
  | buildStart => exact eq_of_next h ▸ lookForBuild_moves
  | cellCompletion => exact cellCompletion_moves h
  | ctxWrite c r v => exact onBus_moves h (ctxWrite_moves c r v)
  | jobPush c v => exact onBus_moves h (jobPush_moves c _)
  | segmentStartAttempt c => exact segmentStartAttempt_moves h
  | pixelStep c => exact pixelStep_moves h
  | chIn c v => exact chIn_moves c v h
  | chOut c => exact chOut_moves c h
  | chCmdAbort c => exact onBus_moves h (chCmdAbort_moves c)
  | chCmdResume c => exact onBus_moves h (chCmdResume_moves c)
  | chCmdReset c => exact chCmdReset_moves c h
  | chCmdIgnored c code => exact onBus_moves h (flag_moves _)

/-- A law that says nothing of the queue of commands, and that every move keeps, is kept by every
step: of a command, and of a clock cycle, which is a tick or a count (R182). -/
theorem step_keeps {P : State → Prop} (hqueue : ∀ s l, P s → P { s with pending := l })
    (hmove : ∀ i s t, P s → Move i s t → P t) {s t : State} (hs : P s) (h : step s = .next t) :
    P t := by
  unfold step at h
  split at h
  · rw [eq_of_next h, State.clockCycle]
    split
    · exact (tick_moves (i := .tick)).keep (hmove .tick) hs
    · exact (count_moves (i := .tick) _).keep (hmove .tick) hs
  next i rest _ => exact (exec_moves h).keep (hmove i) (hqueue s rest hs)

end Sys2Proof.Proofs
end

section
/-! PROOFS. What each move does to the parts of the state: the composed moves as one replacement of
fields each, the event queue under any move (R163 to R173), and the claimed record's stay (R165,
R166). -/

namespace Sys2Proof.Proofs

open Sys2Proof Sys2Proof.Machine Sys2Proof.Safety

/-! ## The composed moves, field by field -/

theorem dropHolds_spec (s : State) (x : Context) :
    dropHolds s x =
      { s with
        banks := if x.src = .i8 then s.banks.set x.bank
          { s.bank x.bank with holders := (s.bank x.bank).holders - 1 } else s.banks
        maps := if x.dst = .i8 then s.maps.set x.map
          { s.map x.map with holders := (s.map x.map).holders - 1 } else s.maps } := by
  unfold dropHolds
  split <;> split <;> rfl

theorem dropHolds_bank (s : State) (x : Context) (b : BankId) : (dropHolds s x).bank b =
    { s.bank b with
      holders := (s.bank b).holders - if x.src = .i8 ∧ b = x.bank then 1 else 0 } := by
  rw [dropHolds_spec, State.bank]
  dsimp only
  by_cases hsrc : x.src = .i8
  · simp only [hsrc, if_true, true_and, PerBank.get_set]
    split
    next heq => rw [heq]
    next => rfl
  · simp only [hsrc, if_false, false_and, Nat.sub_zero]
    rfl

theorem dropHolds_map (s : State) (x : Context) (m : MapId) : (dropHolds s x).map m =
    { s.map m with holders := (s.map m).holders - if x.dst = .i8 ∧ m = x.map then 1 else 0 } := by
  rw [dropHolds_spec, State.map]
  dsimp only
  by_cases hdst : x.dst = .i8
  · simp only [hdst, if_true, true_and, PerMap.get_set]
    split
    next heq => rw [heq]
    next => rfl
  · simp only [hdst, if_false, false_and, Nat.sub_zero]
    rfl

/-- A cell is written, progress rises and the port is told (R101). -/
theorem writeCell_spec (s : State) (m : MapId) (c : Cell) :
    s.writeCell m c =
      { s with
        maps := s.maps.set m { s.map m with cells := (s.map m).cells ++ [c] }
        port := portAfterChange s.port (.map m)
        engine := { s.engine with progress := s.engine.progress + 1 } } := by
  rw [State.writeCell, State.invalidate_spec]
  rfl

theorem finished_spec (s : State) (m : MapId) (c : Cell) :
    finished s m c =
      { s with
        banks := s.banks.set (s.map m).params.source
          { s.bank (s.map m).params.source with
            holders := (s.bank (s.map m).params.source).holders - 1 }
        maps := s.maps.set m (finishedMap (s.map m) c)
        port := portAfterChange s.port (.map m)
        channels := (s.wakeMap m).channels
        engine := { s.engine with
          progress := s.engine.progress + 1
          state := .post (buildDone m ((s.map m).generation + 1)
            (s.bank (s.map m).params.source).generation) } } := by
  rw [finished, writeCell_spec]
  simp only [engineLetsGo, State.setMap, State.wakeMap, State.enginePosts, State.setBank,
    PerMap.set_set]
  rfl

theorem aborted_spec (s : State) (m : MapId) :
    aborted s m =
      { s with
        banks := s.banks.set (s.map m).params.source
          { s.bank (s.map m).params.source with
            holders := (s.bank (s.map m).params.source).holders - 1 }
        maps := s.maps.set m { s.map m with state := .empty, cells := [] }
        port := portAfterChange s.port (.map m)
        channels := (s.wakeMap m).channels
        engine := { s.engine with state := .post (buildFault m .aborted) } } := by
  rw [aborted, State.invalidate_spec]
  rfl

/-- The bank that a direct write changes, before the notice of the change (R27). -/
def written (s : State) (b : BankId) (v : Word) : State :=
  s.setBank b { s.bank b with
    entries := Palette.write (s.bank b).entries s.port.index (Entry.ofWord v)
    generation := (s.bank b).generation + 1 }

theorem directWrite_eq_notice (s : State) (b : BankId) (v : Word) :
    s.directWrite b s.port.index (Entry.ofWord v) = (written s b v).notice b := rfl

theorem showNext_spec (s : State) :
    s.showNext =
      { s with
        scanout := { s.scanout with state := .on, current := s.scanout.next }
        uq := { s.uq with commit := if s.commitOf s.scanout.next = .deferred
          then s.uq.commit.set s.scanout.next .pending else s.uq.commit } } := by
  unfold State.showNext State.gainRole
  by_cases h : s.commitOf s.scanout.next = .deferred
  · rw [if_pos h]
    exact if_pos h
  · rw [if_neg h]
    exact if_neg h

/-! ## The event queue -/

/-- What a move does to the event queue. -/
inductive QueueMove (i : Instr) (q : EventQueue) : EventQueue → Prop
  | same : QueueMove i q q
  | settings (p : EventQueue) : p.urgent = q.urgent → p.routine = q.routine → p.claim = q.claim →
      (q.routine = [] → q.timer = 0 ∧ q.overdue = false → p.timer = 0 ∧ p.overdue = false) →
      (1 ≤ q.threshold.toNat ∧ q.threshold.toNat ≤ 24 →
        1 ≤ p.threshold.toNat ∧ p.threshold.toNat ≤ 24) → QueueMove i q p
  | claim : QueueMove i q q.claimFront
  | unclaim : endsClaim i = true → QueueMove i q q.removeClaimed
  | insert (r : EventRecord) : q.hasRoom r.cls = true → QueueMove i q (q.insert r)
  | softReset : endsClaim i = true → QueueMove i q q.softReset
  | fullReset : i = .fullReset → QueueMove i q EventQueue.reset

theorem Move.eventQueue {i : Instr} {s t : State} (h : Move i s t) : QueueMove i s.eq t.eq := by
  cases h with
  | book u hu _ _ =>
    rw [hu]
    exact .same
  | settings q hurgent hroutine hclaim hzero hthreshold =>
    exact .settings q hurgent hroutine hclaim hzero hthreshold
  | claim => exact .claim
  | unclaim hi => exact .unclaim hi
  | insert r hroom => exact .insert r hroom
  | softReset hi _ => exact .softReset hi
  | fullReset hi => exact .fullReset hi
  | commit b hroom _ =>
    rw [commit_eventQueue]
    split
    next hasks => exact .insert _ (hroom hasks)
    next => exact .same
  | leave c y _ _ =>
    rw [dropHolds_spec]
    exact .same
  | start c _ _ _ _ =>
    rw [State.takeHolds_spec]
    exact .same
  | showNext _ =>
    rw [showNext_spec]
    exact .same
  | enter r _ _ _ =>
    rw [State.enterBuilding_eq]
    exact .same
  | cell c _ _ _ =>
    rw [writeCell_spec]
    exact .same
  | finish c _ _ _ =>
    rw [finished_spec]
    exact .same
  | abort m _ =>
    rw [aborted_spec]
    exact .same
  | write b v _ _ _ =>
    rw [directWrite_eq_notice, State.notice_eq]
    exact .same
  | display | darken | chan | engine | unpost | request | unrequest | fail | stage | sealRecords
  | defer
  | port => exact .same

/-! ## The claim (R165, R166) -/

/-- A record enters a class at its end. -/
theorem ofClass_insert (q : EventQueue) (x : EventRecord) (k : EventClass) :
    ∃ l, (q.insert x).ofClass k = q.ofClass k ++ l := by
  unfold EventQueue.insert
  split <;> cases k
  · exact ⟨_, rfl⟩
  · exact ⟨[], (List.append_nil _).symm⟩
  · exact ⟨[], (List.append_nil _).symm⟩
  · exact ⟨_, rfl⟩

theorem claim_insert (q : EventQueue) (x : EventRecord) : (q.insert x).claim = q.claim := by
  unfold EventQueue.insert
  split <;> rfl

/-- A claim is of the record at the front of its class (R165). -/
theorem claimed_eq_some_iff {q : EventQueue} {r : StampedRecord} :
    q.claimed = some r ↔ ∃ k, q.claim = some k ∧ (q.ofClass k).head? = some r := by
  unfold EventQueue.claimed
  split <;> simp_all

theorem claimed_insert {q : EventQueue} {r : StampedRecord} (h : q.claimed = some r)
    (x : EventRecord) : (q.insert x).claimed = some r := by
  obtain ⟨k, hclaim, hhead⟩ := claimed_eq_some_iff.1 h
  obtain ⟨l, hl⟩ := ofClass_insert q x k
  refine claimed_eq_some_iff.2 ⟨k, (claim_insert q x).trans hclaim, ?_⟩
  rw [hl, List.head?_append, hhead]
  rfl

theorem claimed_of_queueMove {i : Instr} {q p : EventQueue} {r : StampedRecord}
    (hi : endsClaim i = false) (h : q.claimed = some r) (hmove : QueueMove i q p) :
    p.claim = q.claim ∧ p.claimed = some r := by
  cases hmove with
  | same => exact ⟨rfl, h⟩
  | settings p hurgent hroutine hclaim _ _ =>
    refine ⟨hclaim, ?_⟩
    obtain ⟨k, hk, hhead⟩ := claimed_eq_some_iff.1 h
    have hclass : p.ofClass k = q.ofClass k := by
      cases k
      · exact hurgent
      · exact hroutine
    exact claimed_eq_some_iff.2 ⟨k, hclaim.trans hk, by rw [hclass, hhead]⟩
  | claim =>
    obtain ⟨k, hk, -⟩ := claimed_eq_some_iff.1 h
    have hkept : q.claimFront = q := by rw [EventQueue.claimFront, hk]
    rw [hkept]
    exact ⟨rfl, h⟩
  | unclaim hends => simp [hi] at hends
  | insert x _ => exact ⟨claim_insert q x, claimed_insert h x⟩
  | softReset hends => simp [hi] at hends
  | fullReset hfull =>
    rw [hfull] at hi
    exact absurd hi (by decide)

/-- Settles O49: of the moves of a command that ends no claim, none touches the front of the claimed
class (`claimed_of_queueMove`). -/
theorem claimLastsUntilItsRecordIsRemoved : Obligations.ClaimLastsUntilItsRecordIsRemoved := by
  unfold Obligations.ClaimLastsUntilItsRecordIsRemoved
  intro i s t q hi h hclaimed
  refine (exec_moves h).keep (P := fun u => u.eq.claim = s.eq.claim ∧ u.eq.claimed = some q)
    (fun u v hu hmove => ?_) ⟨rfl, hclaimed⟩
  obtain ⟨hclaim, hrecord⟩ := hu
  have hnext := claimed_of_queueMove hi hrecord hmove.eventQueue
  exact ⟨hnext.1.trans hclaim, hnext.2⟩

end Sys2Proof.Proofs
end

section
/-! PROOFS. The laws of commits and holds over moves: sealed-pending flags with SEALED records,
DEFERRED banks free of holds and role (R20, R48), and every holder count the number of holds (R15,
R84, R95). -/

namespace Sys2Proof.Proofs

open Sys2Proof Sys2Proof.Machine Sys2Proof.Safety

/-! ## Commit states (R20, R48) -/

theorem sealedPending_iff (s : State) (b : BankId) :
    s.sealedPending b = true ↔ s.commitOf b ≠ .none := decide_eq_true_iff

theorem sealedFor_iff (r : UpdateRecord) (b : BankId) :
    r.sealedFor b = true ↔ r.bank = b ∧ r.state = .sealed := decide_eq_true_iff

theorem hasRole_eq_false_iff (s : State) (b : BankId) :
    s.hasRole b = false ↔ (s.scanout.state = .on → s.scanout.current ≠ b) := by
  rw [State.hasRole, decide_eq_false_iff_not, not_and]

theorem hasRole_of_scanout {s t : State} (h : t.scanout = s.scanout) (b : BankId) :
    t.hasRole b = s.hasRole b := by
  rw [State.hasRole, State.hasRole, h]

/-- The law says nothing of more than the update queue, the holder counts and the display role. -/
theorem commitsAgree_of_same {s t : State} (hs : CommitsAgree s) (huq : t.uq = s.uq)
    (hfree : ∀ b, s.commitOf b = .deferred → (s.bank b).holders = 0 → s.hasRole b = false →
      (t.bank b).holders = 0 ∧ t.hasRole b = false) : CommitsAgree t := by
  intro b
  obtain ⟨hsealed, hdeferred⟩ := hs b
  have hcommit : t.commitOf b = s.commitOf b := by rw [State.commitOf, huq, State.commitOf]
  refine ⟨?_, fun h => ?_⟩
  · rw [sealedPending_iff, hcommit, huq, ← sealedPending_iff]
    exact hsealed
  · rw [hcommit] at h
    exact hfree b h (hdeferred h).1 (hdeferred h).2

/-- Staging leaves the SEALED records (R38). -/
theorem sealed_of_stageMove {q : UpdateQueue} {l : List UpdateRecord} (h : StageMove q l)
    (b : BankId) : (∃ r ∈ l, r.sealedFor b = true) ↔ ∃ r ∈ q.records, r.sealedFor b = true := by
  simp only [sealedFor_iff]
  cases h with
  | header x _ _ => simp [or_and_right, exists_or, StgHeader.record]
  | dropOpen =>
    simp only [UpdateQueue.withoutOpen, List.mem_filter, decide_eq_true_eq]
    exact ⟨fun ⟨r, ⟨hr, _⟩, h⟩ => ⟨r, hr, h⟩, fun ⟨r, hr, h⟩ => ⟨r, ⟨hr, by simp [h.2]⟩, h⟩⟩
  | colour e =>
    have happend (r : UpdateRecord) :
        ((r.append e).bank = b ∧ (r.append e).state = .sealed) ↔
          r.bank = b ∧ r.state = .sealed := by
      by_cases hopen : r.state = .opened
      · rw [append_of_open hopen]
        dsimp only
        split <;> simp [hopen]
      · rw [append_of_not_open hopen]
    simp only [List.mem_map, exists_exists_and_eq_and, happend]
  | discard b' =>
    simp only [List.mem_filter, decide_eq_true_eq]
    exact ⟨fun ⟨r, ⟨hr, _⟩, h⟩ => ⟨r, hr, h⟩, fun ⟨r, hr, h⟩ => ⟨r, ⟨hr, .inr h.2⟩, h⟩⟩

theorem commitsAgree_stage {s : State} {l : List UpdateRecord} (hs : CommitsAgree s)
    (h : StageMove s.uq l) : CommitsAgree (s.withRecords l) := by
  intro b
  obtain ⟨hsealed, hdeferred⟩ := hs b
  exact ⟨hsealed.trans (sealed_of_stageMove h b).symm, hdeferred⟩

theorem commitsAgree_afterSeal {s : State} {b : BankId} (hs : CommitsAgree s) (n : Bool)
    (hclosed : ∃ r ∈ s.uq.records, r.bank = b ∧ r.state = .closed) :
    CommitsAgree (afterSeal s b n) := by
  intro d
  obtain ⟨hsealed, hdeferred⟩ := hs d
  have hcommit : (afterSeal s b n).commitOf d =
      if d = b then (if s.commitOf b = .none then .pending else s.commitOf b) else s.commitOf d :=
    PerBank.get_set _ _ _ _
  have hrecords : (∃ r ∈ (afterSeal s b n).uq.records, r.sealedFor d = true) ↔
      d = b ∨ ∃ r ∈ s.uq.records, r.sealedFor d = true := by
    simp only [afterSeal, List.mem_map, exists_exists_and_eq_and, sealedFor_iff]
    constructor
    · rintro ⟨r, hr, h⟩
      by_cases hseal : r.bank = b ∧ r.state = .closed
      · rw [if_pos hseal] at h
        exact .inl (h.1.symm.trans hseal.1)
      · rw [if_neg hseal] at h
        exact .inr ⟨r, hr, h⟩
    · rintro (rfl | ⟨r, hr, h⟩)
      · obtain ⟨r, hr, hseal⟩ := hclosed
        exact ⟨r, hr, by rw [if_pos hseal]; exact ⟨hseal.1, rfl⟩⟩
      · refine ⟨r, hr, ?_⟩
        rw [if_neg (by simp [h.2])]
        exact h
  rw [sealedPending_iff, hrecords, hcommit]
  by_cases hd : d = b
  · subst hd
    rw [if_pos rfl]
    refine ⟨⟨fun _ => .inl rfl, fun _ => ?_⟩, fun h => hdeferred ?_⟩
    · split <;> simp_all
    · split at h <;> simp_all
  · rw [if_neg hd, ← sealedPending_iff]
    exact ⟨hsealed.trans (by simp [hd]), hdeferred⟩

theorem commitsAgree_commit {s : State} (hs : CommitsAgree s) (b : BankId) :
    CommitsAgree (s.commit b) := by
  intro d
  obtain ⟨hsealed, hdeferred⟩ := hs d
  have hrole : (s.commit b).hasRole d = s.hasRole d := hasRole_of_scanout (s.commit_scanout b) d
  have hholders : ((s.commit b).bank d).holders = (s.bank d).holders := by
    rw [commit_bank]
    split
    next heq => rw [heq]
    next => rfl
  have hrecords : (∃ r ∈ (s.commit b).uq.records, r.sealedFor d = true) ↔
      d ≠ b ∧ ∃ r ∈ s.uq.records, r.sealedFor d = true := by
    rw [commit_uq]
    simp only [List.mem_filter, decide_eq_true_eq, sealedFor_iff]
    constructor
    · rintro ⟨r, ⟨hr, hleft⟩, hbank, hstate⟩
      exact ⟨fun heq => hleft.elim (fun h => h (hbank.trans heq)) (fun h => h hstate),
        r, hr, hbank, hstate⟩
    · rintro ⟨hne, r, hr, hbank, hstate⟩
      exact ⟨r, ⟨hr, .inl (hbank ▸ hne)⟩, hbank, hstate⟩
  rw [sealedPending_iff, hrecords, commit_commitOf, hholders, hrole]
  by_cases hd : d = b
  · simp [hd]
  · rw [if_neg hd, ← sealedPending_iff]
    exact ⟨hsealed.trans (by simp [hd]), hdeferred⟩

theorem commitsAgree_defer {s : State} {b : BankId} (hs : CommitsAgree s)
    (hpending : s.commitOf b = .pending) (hholders : (s.bank b).holders = 0)
    (hrole : s.hasRole b = false) : CommitsAgree (s.setCommit b .deferred) := by
  intro d
  obtain ⟨hsealed, hdeferred⟩ := hs d
  rw [sealedPending_iff, State.commitOf_setCommit]
  by_cases hd : d = b
  · subst hd
    rw [sealedPending_iff, hpending] at hsealed
    rw [if_pos rfl]
    exact ⟨⟨fun _ => hsealed.1 (by decide), fun _ => by decide⟩, fun _ => ⟨hholders, hrole⟩⟩
  · rw [if_neg hd, ← sealedPending_iff]
    exact ⟨hsealed, hdeferred⟩

theorem commitsAgree_showNext {s : State} (hs : CommitsAgree s) : CommitsAgree s.showNext := by
  intro d
  obtain ⟨hsealed, hdeferred⟩ := hs d
  have hcommit : s.showNext.commitOf d =
      if s.commitOf s.scanout.next = .deferred ∧ d = s.scanout.next then .pending
      else s.commitOf d := by
    rw [showNext_spec, State.commitOf]
    dsimp only
    by_cases h : s.commitOf s.scanout.next = .deferred
    · simp only [h, if_true, true_and]
      exact PerBank.get_set _ _ _ _
    · simp only [h, if_false, false_and]
      rfl
  have hrecords : s.showNext.uq.records = s.uq.records := by rw [showNext_spec]
  have hbank : s.showNext.bank d = s.bank d := by rw [showNext_spec]; rfl
  have hrole : s.showNext.hasRole d = decide (s.scanout.next = d) := by
    rw [showNext_spec, State.hasRole]
    simp
  rw [sealedPending_iff, hrecords, hcommit, hbank, hrole]
  rw [sealedPending_iff] at hsealed
  split
  next h =>
    obtain ⟨hnext, rfl⟩ := h
    exact ⟨hsealed.symm.trans (by simp [hnext]) |>.symm, by simp⟩
  next h =>
    refine ⟨hsealed, fun hd => ⟨(hdeferred hd).1, decide_eq_false fun heq => h ⟨?_, heq.symm⟩⟩⟩
    rw [heq, hd]

theorem commitsAgree_softReset (s : State) : CommitsAgree s.softReset := by
  intro b
  have hnone : s.softReset.commitOf b = .none := by cases b <;> rfl
  have hrecords : s.softReset.uq.records = [] := rfl
  rw [sealedPending_iff, hnone, hrecords]
  simp

theorem commitsAgree_fullReset (s : State) : CommitsAgree s.fullReset := by
  intro b
  have hrecords : s.fullReset.uq.records = [] := rfl
  rw [sealedPending_iff, commitOf_fullReset, hrecords]
  simp

/-- A bank whose sealed records hold a segment back is the only kind that can be DEFERRED (R48). -/
theorem src_not_deferred {s : State} {x : Context} (hsrc : x.src = .i8)
    (h : s.bankHoldsBack x = false) : s.commitOf x.bank ≠ .deferred := by
  intro hdeferred
  have : s.bankHoldsBack x = true :=
    (bankHoldsBack_iff s x).2 ⟨hsrc, (sealedPending_iff s _).2 (by simp [hdeferred])⟩
  simp [h] at this

theorem commitsAgree_move {i : Instr} {s t : State} (hs : CommitsAgree s) (h : Move i s t) :
    CommitsAgree t := by
  cases h with
  | book u hu _ _ =>
    rw [hu]
    exact commitsAgree_of_same hs rfl fun _ _ hfree hrole => ⟨hfree, hrole⟩
  | display x hstate hcurrent =>
    refine commitsAgree_of_same hs rfl fun b _ hfree hrole => ⟨hfree, ?_⟩
    rw [hasRole_eq_false_iff] at hrole ⊢
    rwa [← hstate, ← hcurrent] at hrole
  | darken x hx =>
    refine commitsAgree_of_same hs rfl fun b _ hfree _ => ⟨hfree, ?_⟩
    rw [hasRole_eq_false_iff]
    exact fun hon => absurd hon hx
  | showNext _ => exact commitsAgree_showNext hs
  | leave c y _ _ =>
    refine commitsAgree_of_same hs (by rw [dropHolds_spec]; rfl) fun b _ hfree hrole => ⟨?_, ?_⟩
    · rw [dropHolds_bank, State.setChan_bank, hfree, Nat.zero_sub]
    · exact (hasRole_of_scanout (by rw [dropHolds_spec]; rfl) b).trans hrole
  | start c _ _ hbank _ =>
    refine commitsAgree_of_same hs (by rw [State.takeHolds_spec]; rfl)
      fun b hdeferred hfree hrole => ⟨?_, ?_⟩
    · rw [takeHolds_bank, State.setChan_bank, if_neg]
      · exact hfree
      · rintro ⟨hsrc, rfl⟩
        exact src_not_deferred hsrc hbank hdeferred
    · exact (hasRole_of_scanout (by rw [State.takeHolds_spec]; rfl) b).trans hrole
  | enter r _ _ hstart =>
    have hnone : s.commitOf r.params.source = .none := ((startable_iff s r).1 hstart).2
    refine commitsAgree_of_same hs (by rw [State.enterBuilding_uq])
      fun b hdeferred hfree hrole => ⟨?_, ?_⟩
    · rw [enterBuilding_bank, if_neg]
      · exact hfree
      · rintro rfl
        simp [hnone] at hdeferred
    · exact (hasRole_of_scanout (s.enterBuilding_scanout r) b).trans hrole
  | cell c _ _ _ =>
    rw [writeCell_spec]
    exact commitsAgree_of_same hs rfl fun _ _ hfree hrole => ⟨hfree, hrole⟩
  | finish c _ _ _ =>
    rw [finished_spec]
    refine commitsAgree_of_same hs rfl fun b _ hfree hrole => ⟨?_, hrole⟩
    rw [State.bank, PerBank.get_set]
    split
    next heq => rw [← heq, hfree]
    next => exact hfree
  | abort m _ =>
    rw [aborted_spec]
    refine commitsAgree_of_same hs rfl fun b _ hfree hrole => ⟨?_, hrole⟩
    rw [State.bank, PerBank.get_set]
    split
    next heq => rw [← heq, hfree]
    next => exact hfree
  | stage l hl => exact commitsAgree_stage hs hl
  | sealRecords b n _ hclosed => exact commitsAgree_afterSeal hs n hclosed
  | commit b _ _ => exact commitsAgree_commit hs b
  | defer b hpending hholders hrole => exact commitsAgree_defer hs hpending hholders hrole
  | write b v _ _ _ =>
    rw [directWrite_eq_notice]
    refine commitsAgree_of_same hs (by rw [State.notice_uq]; rfl) fun d _ hfree hrole => ⟨?_, ?_⟩
    · rw [State.bank, State.notice_banks]
      refine (congrArg Bank.holders (State.bank_setBank s b d _)).trans ?_
      split
      next heq => rw [← heq]; exact hfree
      next => exact hfree
    · exact (hasRole_of_scanout (State.notice_scanout _ _) d).trans hrole
  | softReset _ _ => exact commitsAgree_softReset s
  | fullReset _ => exact commitsAgree_fullReset s
  | settings | claim | unclaim | insert | chan | engine | unpost | request | unrequest | fail
  | port =>
    exact commitsAgree_of_same hs rfl fun _ _ hfree hrole => ⟨hfree, hrole⟩

/-- Settles O55: every move keeps the law (`commitsAgree_move`); a seal marks both sides, a commit
clears both, and no bank with sealed records is given a hold while it is DEFERRED. -/
theorem everyStepKeepsTheCommitStates : Obligations.EveryStepKeepsTheCommitStates :=
  fun _ _ hs h =>
    step_keeps (fun _ _ hu => hu) (fun _ _ _ hu hmove => commitsAgree_move hu hmove) hs h

end Sys2Proof.Proofs
end

section
/-! PROOFS. The law of holds over moves: every holder count is the number of holds, of the channels
in RUN and of the build engine (R15, R84), and a BUILDING map, the engine's, has none (R87, R95). -/

namespace Sys2Proof.Proofs

open Sys2Proof Sys2Proof.Machine Sys2Proof.Safety

/-! ## What a channel contributes -/

/-- The channel is in RUN after as before, and in RUN its context stays: its holds are the same. -/
def SameRun (x y : Channel) : Prop :=
  (y.state = .run ↔ x.state = .run) ∧ (x.state = .run → y.ctx = x.ctx)

theorem SameRun.refl (x : Channel) : SameRun x x := ⟨Iff.rfl, fun _ => rfl⟩

theorem sameRun_of_not_run {x y : Channel} (hx : x.state ≠ .run) (hy : y.state ≠ .run) :
    SameRun x y :=
  ⟨⟨fun h => absurd h hy, fun h => absurd h hx⟩, fun h => absurd h hx⟩

theorem SameRun.bankHold {x y : Channel} (h : SameRun x y) (b : BankId) :
    chanBankHold y b = chanBankHold x b := by
  obtain ⟨hrun, hctx⟩ := h
  unfold chanBankHold
  by_cases hx : x.state = .run
  · rw [hctx hx]
    simp only [hrun]
  · simp only [hrun, hx, false_and]

theorem SameRun.mapHold {x y : Channel} (h : SameRun x y) (m : MapId) :
    chanMapHold y m = chanMapHold x m := by
  obtain ⟨hrun, hctx⟩ := h
  unfold chanMapHold
  by_cases hx : x.state = .run
  · rw [hctx hx]
    simp only [hrun]
  · simp only [hrun, hx, false_and]

theorem nextJob_not_run (x : Channel) : x.nextJob.state ≠ .run := by
  obtain ⟨-, h⟩ | ⟨j, rest, -, h⟩ := x.nextJob_cases <;> simp [h]

theorem posted_not_run (x : Channel) (r : EventRecord) : (x.posted r).state ≠ .run := by
  unfold Channel.posted
  split
  · simp
  · simp
  · exact nextJob_not_run _
  · exact nextJob_not_run _
  · exact nextJob_not_run _
  · exact nextJob_not_run _

/-- A pushed descriptor changes a channel's state and path only out of IDLE. -/
theorem push_cases (x : Channel) (j : Job) :
    (x.state ≠ .idle ∧ x.push j = { x with jobs := x.jobs ++ [j] }) ∨
      (x.state = .idle ∧ x.push j = Channel.nextJob { x with jobs := x.jobs ++ [j] }) := by
  unfold Channel.push
  split
  · exact .inr ⟨‹_›, rfl⟩
  · exact .inl ⟨‹_›, rfl⟩

theorem sameRun_of_chanMove {s : State} {c : Chan} {x y : Channel} (h : ChanMove s c x y) :
    SameRun x y := by
  cases h with
  | context k hjob =>
    have hnot : x.state ≠ .run := fun hrun => by simp [hrun, ChanState.hasJob] at hjob
    exact sameRun_of_not_run hnot hnot
  | push j _ _ =>
    obtain ⟨-, h⟩ | ⟨hidle, h⟩ := push_cases x j
    · rw [h]
      exact ⟨Iff.rfl, fun _ => rfl⟩
    · rw [h]
      exact sameRun_of_not_run (by simp [hidle]) (nextJob_not_run _)
  | resume hhalted => exact sameRun_of_not_run (by simp [hhalted]) (nextJob_not_run x)
  | reset hnot => exact sameRun_of_not_run hnot (by simp [Channel.chanReset, Channel.reset])
  | waitBank hwait _ => exact sameRun_of_not_run (by simp [hwait]) (by simp)
  | waitMap hwait _ => exact sameRun_of_not_run (by simp [hwait]) (by simp)
  | fault f hnot _ => exact sameRun_of_not_run hnot (by simp [Channel.faulted])
  | posted r hpost => exact sameRun_of_not_run (by simp [hpost]) (posted_not_run x r)
  | registers | input | output | stall | pixel => exact ⟨Iff.rfl, fun _ => rfl⟩

theorem not_run_of_chanLeave {s : State} {c : Chan} {x y : Channel} (h : ChanLeave s c x y) :
    y.state ≠ .run := by
  cases h with
  | fault f => simp [Channel.faulted]
  | reset => simp [Channel.chanReset, Channel.reset]
  | jobEnd job r _ _ => simp [Channel.jobEnded]
  | segmentEnd job r gen _ _ _ =>
    unfold Channel.segmentEnded
    split <;> simp

theorem sameRun_wakeForBank (x : Channel) (b : BankId) : SameRun x (x.wakeForBank b) := by
  unfold Channel.wakeForBank
  split
  next h => exact sameRun_of_not_run (by simp [h.1]) (by simp)
  next => exact SameRun.refl x

theorem sameRun_wakeForMap (x : Channel) (m : MapId) : SameRun x (x.wakeForMap m) := by
  unfold Channel.wakeForMap
  split
  next h => exact sameRun_of_not_run (by simp [h.1]) (by simp)
  next => exact SameRun.refl x

/-! ## The holds of all channels -/

/-- The holds of the channels on a bank. -/
def chanBankHolds (s : State) (b : BankId) : Nat :=
  chanBankHold (s.chan .ch0) b + chanBankHold (s.chan .ch1) b + chanBankHold (s.chan .ch2) b

theorem bankHolds_eq (s : State) (b : BankId) :
    bankHolds s b = chanBankHolds s b + engineHold s b := rfl

section
variable {s t : State}

theorem chanBankHolds_of_sameRun (h : ∀ c, SameRun (s.chan c) (t.chan c)) (b : BankId) :
    chanBankHolds t b = chanBankHolds s b := by
  simp only [chanBankHolds, (h _).bankHold]

theorem mapHolds_of_sameRun (h : ∀ c, SameRun (s.chan c) (t.chan c)) (m : MapId) :
    mapHolds t m = mapHolds s m := by
  simp only [mapHolds, (h _).mapHold]

/-- One channel's contribution is exchanged for another's. -/
theorem chanBankHolds_replaced {c : Chan} (h : ∀ d, d ≠ c → t.chan d = s.chan d) (b : BankId) :
    chanBankHolds t b + chanBankHold (s.chan c) b =
      chanBankHolds s b + chanBankHold (t.chan c) b := by
  unfold chanBankHolds
  cases c with
  | ch0 => rw [h .ch1 (by decide), h .ch2 (by decide)]; omega
  | ch1 => rw [h .ch0 (by decide), h .ch2 (by decide)]; omega
  | ch2 => rw [h .ch0 (by decide), h .ch1 (by decide)]; omega

theorem mapHolds_replaced {c : Chan} (h : ∀ d, d ≠ c → t.chan d = s.chan d) (m : MapId) :
    mapHolds t m + chanMapHold (s.chan c) m = mapHolds s m + chanMapHold (t.chan c) m := by
  unfold mapHolds
  cases c with
  | ch0 => rw [h .ch1 (by decide), h .ch2 (by decide)]; omega
  | ch1 => rw [h .ch0 (by decide), h .ch2 (by decide)]; omega
  | ch2 => rw [h .ch0 (by decide), h .ch1 (by decide)]; omega

theorem chanBankHold_of_run {x : Channel} (h : x.state = .run) (b : BankId) :
    chanBankHold x b = if x.ctx.src = .i8 ∧ b = x.ctx.bank then 1 else 0 := by
  simp only [chanBankHold, h, true_and, Context.holdsBank, decide_eq_true_eq, eq_comm (a := b)]

theorem chanMapHold_of_run {x : Channel} (h : x.state = .run) (m : MapId) :
    chanMapHold x m = if x.ctx.dst = .i8 ∧ m = x.ctx.map then 1 else 0 := by
  simp only [chanMapHold, h, true_and, Context.holdsMap, decide_eq_true_eq, eq_comm (a := m)]

theorem chanBankHold_of_not_run {x : Channel} (h : x.state ≠ .run) (b : BankId) :
    chanBankHold x b = 0 := by simp [chanBankHold, h]

theorem chanMapHold_of_not_run {x : Channel} (h : x.state ≠ .run) (m : MapId) :
    chanMapHold x m = 0 := by simp [chanMapHold, h]

theorem engineHold_of_building (h : s.engine.state = .building) (b : BankId) :
    engineHold s b = if b = (s.map s.engine.current).params.source then 1 else 0 := by
  simp only [engineHold, h, true_and, eq_comm (a := b)]

theorem engineHold_of_not_building (h : s.engine.state ≠ .building) (b : BankId) :
    engineHold s b = 0 := by simp [engineHold, h]

theorem engineHold_of_same (hengine : t.engine.state = .building ↔ s.engine.state = .building)
    (hcurrent : s.engine.state = .building → t.engine.current = s.engine.current)
    (hsource : ∀ m, (t.map m).params.source = (s.map m).params.source) (b : BankId) :
    engineHold t b = engineHold s b := by
  by_cases h : s.engine.state = .building
  · rw [engineHold_of_building h, engineHold_of_building (hengine.2 h), hcurrent h, hsource]
  · rw [engineHold_of_not_building h, engineHold_of_not_building (mt hengine.1 h)]

/-- The law says nothing of more than the holder counts, the holders, and which map is BUILDING. -/
theorem holdsAgree_of_same (hs : HoldsAgree s) (hagree : EngineAgrees t)
    (hchan : ∀ c, SameRun (s.chan c) (t.chan c))
    (hbank : ∀ b, (t.bank b).holders = (s.bank b).holders)
    (hmap : ∀ m, (t.map m).holders = (s.map m).holders ∧
      ((t.map m).state = .building → (s.map m).state = .building))
    (hhold : ∀ b, engineHold t b = engineHold s b) : HoldsAgree t := by
  obtain ⟨-, hbanks, hmaps, hfree⟩ := hs
  refine ⟨hagree, fun b => ?_, fun m => ?_, fun m hbuilding => ?_⟩
  · rw [hbank, hbanks, bankHolds_eq, bankHolds_eq, chanBankHolds_of_sameRun hchan, hhold]
  · rw [(hmap m).1, hmaps, mapHolds_of_sameRun hchan]
  · rw [(hmap m).1]
    exact hfree m ((hmap m).2 hbuilding)

/-- The engine, and the maps but for their cells and what makes them READY or STALE, stay. -/
theorem holdsAgree_of_engine_same (hs : HoldsAgree s)
    (hchan : ∀ c, SameRun (s.chan c) (t.chan c))
    (hbank : ∀ b, (t.bank b).holders = (s.bank b).holders)
    (hmap : ∀ m, (t.map m).holders = (s.map m).holders ∧
      (t.map m).params = (s.map m).params ∧
      ((t.map m).state = .building ↔ (s.map m).state = .building))
    (hengine : t.engine.state = .building ↔ s.engine.state = .building)
    (hcurrent : s.engine.state = .building → t.engine.current = s.engine.current) :
    HoldsAgree t := by
  refine holdsAgree_of_same hs (fun m => ?_) hchan hbank (fun m => ⟨(hmap m).1, (hmap m).2.2.1⟩)
    (engineHold_of_same hengine hcurrent fun m => by rw [(hmap m).2.1])
  rw [(hmap m).2.2, hs.1 m, hengine]
  exact and_congr_right fun h => by rw [hcurrent h]

end

/-! ## The moves that give and take holds -/

theorem setChan_other {s : State} {c : Chan} (y : Channel) {d : Chan} (h : d ≠ c) :
    (s.setChan c y).chan d = s.chan d := by rw [State.chan_setChan, if_neg h]

theorem holdsAgree_chan {s : State} {c : Chan} {y : Channel} (hs : HoldsAgree s)
    (h : SameRun (s.chan c) y) : HoldsAgree (s.setChan c y) := by
  refine holdsAgree_of_engine_same hs (fun d => ?_) (fun _ => rfl)
    (fun _ => ⟨rfl, rfl, Iff.rfl⟩) Iff.rfl fun _ => rfl
  rw [State.chan_setChan]
  split
  next heq => rwa [heq]
  next => exact SameRun.refl _

/-- A channel that leaves RUN takes its holds with it (R17, R84). -/
theorem holdsAgree_leave {s : State} {c : Chan} {y : Channel} (hs : HoldsAgree s)
    (hrun : (s.chan c).state = .run) (hy : y.state ≠ .run) :
    HoldsAgree (dropHolds (s.setChan c y) (s.chan c).ctx) := by
  obtain ⟨hagree, hbanks, hmaps, hfree⟩ := hs
  generalize ht : dropHolds (s.setChan c y) (s.chan c).ctx = t
  have hengine : t.engine = s.engine := by rw [← ht, dropHolds_spec]; rfl
  have hchans : t.channels = (s.setChan c y).channels := by rw [← ht, dropHolds_spec]
  have hother : ∀ d, d ≠ c → t.chan d = s.chan d := fun d hd => by
    rw [State.chan, hchans]
    exact setChan_other y hd
  have hsame : t.chan c = y := by
    rw [State.chan, hchans]
    exact s.chan_setChan_same c y
  have hbank (b : BankId) :
    (t.bank b).holders = (s.bank b).holders - chanBankHold (s.chan c) b := by
    rw [← ht, dropHolds_bank, chanBankHold_of_run hrun]
    rfl
  have hmap (m : MapId) : t.map m =
      { s.map m with holders := (s.map m).holders - chanMapHold (s.chan c) m } := by
    rw [← ht, dropHolds_map, chanMapHold_of_run hrun]
    rfl
  refine ⟨fun m => ?_, fun b => ?_, fun m => ?_, fun m => ?_⟩
  · rw [hmap, hengine]
    exact hagree m
  · have hparts := chanBankHolds_replaced hother b
    rw [hsame, chanBankHold_of_not_run hy] at hparts
    have hhold : engineHold t b = engineHold s b :=
      engineHold_of_same (by rw [hengine]) (fun _ => by rw [hengine]) (fun m => by rw [hmap]) b
    rw [hbank, hbanks, bankHolds_eq, bankHolds_eq, hhold]
    omega
  · have hparts := mapHolds_replaced hother m
    rw [hsame, chanMapHold_of_not_run hy] at hparts
    rw [hmap]
    dsimp only
    rw [hmaps]
    omega
  · rw [hmap]
    intro hbuilding
    have := hfree m hbuilding
    dsimp only
    omega

/-- A channel that enters RUN takes its holds, on a map that is not BUILDING (R119). -/
theorem holdsAgree_start {s : State} {c : Chan} (hs : HoldsAgree s)
    (hwait : (s.chan c).state = .wait .start) (hmapFree : s.mapHoldsBack (s.chan c).ctx = false) :
    HoldsAgree ((s.setChan c { s.chan c with state := .run, stall := 0 }).takeHolds
      (s.chan c).ctx) := by
  obtain ⟨hagree, hbanks, hmaps, hfree⟩ := hs
  generalize hy : ({ s.chan c with state := .run, stall := 0 } : Channel) = y
  have hrun : y.state = .run := by rw [← hy]
  have hctx : y.ctx = (s.chan c).ctx := by rw [← hy]
  have hnot : (s.chan c).state ≠ .run := by simp [hwait]
  generalize ht : (s.setChan c y).takeHolds (s.chan c).ctx = t
  have hengine : t.engine = s.engine := by rw [← ht, State.takeHolds_spec]; rfl
  have hother : ∀ d, d ≠ c → t.chan d = s.chan d := fun d hd => by
    rw [← ht, takeHolds_chan, setChan_other y hd]
  have hsame : t.chan c = y := by rw [← ht, takeHolds_chan, State.chan_setChan_same]
  have hbank (b : BankId) : (t.bank b).holders = (s.bank b).holders + chanBankHold y b := by
    rw [← ht, takeHolds_bank, chanBankHold_of_run hrun, hctx]
    rfl
  have hmap (m : MapId) : t.map m =
      { s.map m with holders := (s.map m).holders + chanMapHold y m } := by
    rw [← ht, takeHolds_map, chanMapHold_of_run hrun, hctx]
    rfl
  refine ⟨fun m => ?_, fun b => ?_, fun m => ?_, fun m => ?_⟩
  · rw [hmap, hengine]
    exact hagree m
  · have hparts := chanBankHolds_replaced hother b
    rw [hsame, chanBankHold_of_not_run hnot] at hparts
    have hhold : engineHold t b = engineHold s b :=
      engineHold_of_same (by rw [hengine]) (fun _ => by rw [hengine]) (fun m => by rw [hmap]) b
    rw [hbank, hbanks, bankHolds_eq, bankHolds_eq, hhold]
    omega
  · have hparts := mapHolds_replaced hother m
    rw [hsame, chanMapHold_of_not_run hnot] at hparts
    rw [hmap]
    dsimp only
    rw [hmaps]
    omega
  · rw [hmap]
    intro hbuilding
    have hzero := hfree m hbuilding
    have hunheld : chanMapHold y m = 0 := by
      rw [chanMapHold_of_run hrun, hctx, if_neg]
      rintro ⟨hdst, rfl⟩
      have : s.mapHoldsBack (s.chan c).ctx = true := (mapHoldsBack_iff s _).2 ⟨hdst, .inl hbuilding⟩
      simp [hmapFree] at this
    dsimp only
    omega

theorem not_building_of_idle {s : State} (hs : EngineAgrees s) (hidle : s.engine.state ≠ .building)
    (m : MapId) : (s.map m).state ≠ .building := fun hm => hidle ((hs m).1 hm).1

/-- A build start gives the engine its hold on the source bank (R98). -/
theorem holdsAgree_enter {s : State} {r : BuildRequest} (hs : HoldsAgree s)
    (hidle : s.engine.state = .idle) (hstart : s.startable r = true) :
    HoldsAgree (s.enterBuilding r) := by
  obtain ⟨hagree, hbanks, hmaps, hfree⟩ := hs
  have hnone := not_building_of_idle hagree (by simp [hidle])
  have hmap (m : MapId) : (s.enterBuilding r).map m =
      if m = r.map then { s.map r.map with state := .building, params := r.params, cells := [] }
      else s.map m := by
    rw [enterBuilding_eq]
    exact PerMap.get_set _ _ _ _
  have hstate : (s.enterBuilding r).engine.state = .building := by rw [enterBuilding_eq]
  have hcurrent : (s.enterBuilding r).engine.current = r.map := by rw [enterBuilding_eq]
  have hchan (c : Chan) : (s.enterBuilding r).chan c = s.chan c := by rw [enterBuilding_eq]; rfl
  refine ⟨fun m => ?_, fun b => ?_, fun m => ?_, fun m => ?_⟩
  · rw [hmap, hstate, hcurrent]
    split
    next heq => simp [heq]
    next hne => simp [hnone m, Ne.symm hne]
  · have hsource : ((s.enterBuilding r).map r.map).params.source = r.params.source := by
      rw [hmap, if_pos rfl]
    rw [enterBuilding_bank, hbanks, bankHolds_eq, bankHolds_eq, engineHold_of_building hstate,
      hcurrent, hsource, engineHold_of_not_building (by simp [hidle]),
      chanBankHolds_of_sameRun (fun c => by rw [hchan]; exact SameRun.refl _), Nat.add_zero]
  · rw [mapHolds_of_sameRun (s := s) (fun c => by rw [hchan]; exact SameRun.refl _), ← hmaps, hmap]
    split
    next heq => rw [heq]
    next => rfl
  · rw [hmap]
    split
    next => exact fun _ => ((startable_iff s r).1 hstart).1
    next => exact hfree m

/-- A build that ends at its start leaves no hold (R99). -/
theorem holdsAgree_fail {s : State} {r : BuildRequest} (hs : HoldsAgree s)
    (hidle : s.engine.state = .idle) : HoldsAgree (failedStart s r) := by
  have hnone := not_building_of_idle hs.1 (by simp [hidle])
  have hmap (m : MapId) : (failedStart s r).map m =
      if m = r.map then { s.map r.map with state := .empty, params := r.params, cells := [] }
      else s.map m := PerMap.get_set _ _ _ _
  have hpost : (failedStart s r).engine.state ≠ .building := by simp [failedStart, State.wakeMap]
  have hempty (m : MapId) : ((failedStart s r).map m).state ≠ .building := by
    rw [hmap]
    split
    next => simp
    next => exact hnone m
  refine holdsAgree_of_same hs (fun m => ?_)
    (fun c => by rw [failedStart, State.wakeMap_chan]; exact sameRun_wakeForMap _ _) (fun _ => rfl)
    (fun m => ⟨?_, fun h => absurd h (hempty m)⟩) fun b => ?_
  · simp [hempty m, hpost]
  · rw [hmap]
    split
    next heq => rw [heq]
    next => rfl
  · rw [engineHold_of_not_building hpost, engineHold_of_not_building (by simp [hidle])]

/-- A written cell is no part of the law (R101). -/
theorem holdsAgree_cell {s : State} (hs : HoldsAgree s) (c : Cell) :
    HoldsAgree (s.writeCell s.engine.current c) := by
  have hmap (m : MapId) : ∃ l, (s.writeCell s.engine.current c).map m =
      { s.map m with cells := l } := by
    rw [writeCell_spec, State.map, PerMap.get_set]
    split
    next heq => rw [heq]; exact ⟨_, rfl⟩
    next => exact ⟨_, rfl⟩
  rw [writeCell_spec] at hmap ⊢
  refine holdsAgree_of_engine_same hs (fun _ => SameRun.refl _) (fun _ => rfl) (fun m => ?_) Iff.rfl
    fun _ => rfl
  obtain ⟨l, hl⟩ := hmap m
  rw [hl]
  exact ⟨rfl, rfl, Iff.rfl⟩

/-- The engine that ends its build gives up its hold on the source bank (R99, R102, R105). -/
theorem holdsAgree_end {s t : State} {m : MapId} {x : ReductionMap} (hs : HoldsAgree s)
    (hbuilding : (s.map m).state = .building)
    (hbanks : t.banks = s.banks.set (s.map m).params.source
      { s.bank (s.map m).params.source with
        holders := (s.bank (s.map m).params.source).holders - 1 })
    (hmaps : t.maps = s.maps.set m x) (hx : x.state ≠ .building)
    (hholders : x.holders = (s.map m).holders)
    (hchan : ∀ c, SameRun (s.chan c) (t.chan c)) (hpost : t.engine.state ≠ .building) :
    HoldsAgree t := by
  obtain ⟨hagree, hbankHolds, hmapHolds, hfree⟩ := hs
  obtain ⟨hstate, rfl⟩ := (hagree m).1 hbuilding
  have hmap (k : MapId) : t.map k = if k = s.engine.current then x else s.map k := by
    rw [State.map, hmaps, PerMap.get_set]
    rfl
  have hnone (k : MapId) : (t.map k).state ≠ .building := by
    rw [hmap]
    split
    next => exact hx
    next hne => exact fun hk => hne ((hagree k).1 hk).2.symm
  refine ⟨fun k => ?_, fun b => ?_, fun k => ?_, fun k hk => absurd hk (hnone k)⟩
  · simp [hnone k, hpost]
  · have hold : (t.bank b).holders = (s.bank b).holders - engineHold s b := by
      rw [State.bank, hbanks, PerBank.get_set, engineHold_of_building hstate]
      split
      next heq => rw [heq]
      next => rfl
    rw [hold, hbankHolds, bankHolds_eq, bankHolds_eq, engineHold_of_not_building hpost,
      chanBankHolds_of_sameRun hchan, Nat.add_sub_cancel, Nat.add_zero]
  · rw [mapHolds_of_sameRun hchan, ← hmapHolds, hmap]
    split
    next heq => rw [hholders, heq]
    next => rfl

theorem holdsAgree_softReset (s : State) : HoldsAgree s.softReset := by
  have hmap (m : MapId) : s.softReset.map m = (s.map m).softReset := by cases m <;> rfl
  have hbank (b : BankId) : s.softReset.bank b = (s.bank b).softReset := by cases b <;> rfl
  refine ⟨fun m => ?_, fun b => ?_, fun m => ?_, fun m => ?_⟩
  · rw [hmap]
    simp [ReductionMap.softReset, ReductionMap.reset, State.softReset, BuildEngine.reset]
  · rw [hbank]
    rfl
  · rw [hmap]
    rfl
  · rw [hmap]
    exact fun _ => rfl

theorem holdsAgree_fullReset (s : State) : HoldsAgree s.fullReset := by
  refine ⟨fun m => ?_, fun b => ?_, fun m => ?_, fun m => ?_⟩
  · rw [map_fullReset]
    simp [ReductionMap.reset, State.fullReset, State.reset, BuildEngine.reset]
  · rw [bank_fullReset]
    rfl
  · rw [map_fullReset]
    rfl
  · rw [map_fullReset]
    exact fun _ => rfl

/-! ## Every move -/

/-- A change of a bank leaves what the law says of a map. -/
theorem mapAfterChange_frame (x : ReductionMap) (b : BankId) :
    mapAfterChange x b = { x with state := (mapAfterChange x b).state } ∧
      ((mapAfterChange x b).state = .building ↔ x.state = .building) := by
  unfold mapAfterChange
  split
  next h => exact ⟨rfl, by simp [h.1]⟩
  next => exact ⟨rfl, Iff.rfl⟩

/-- A notice of a change leaves the law's parts. -/
theorem holdsAgree_notice {s t : State} (hs : HoldsAgree s) (b : BankId)
    (hchan : ∀ c, SameRun (s.chan c) (t.chan c))
    (hbank : ∀ b, (t.bank b).holders = (s.bank b).holders)
    (hmap : ∀ m, t.map m = mapAfterChange (s.map m) b)
    (hengine : t.engine = { s.engine with requests := t.engine.requests }) : HoldsAgree t := by
  refine holdsAgree_of_engine_same hs hchan hbank (fun m => ?_) (by rw [hengine])
    fun _ => by rw [hengine]
  obtain ⟨hframe, hbuilding⟩ := mapAfterChange_frame (s.map m) b
  rw [hmap]
  exact ⟨by rw [hframe], by rw [hframe], hbuilding⟩

theorem commit_holders (s : State) (b d : BankId) :
    ((s.commit b).bank d).holders = (s.bank d).holders := by
  rw [commit_bank]
  split
  next heq => rw [heq]
  next => rfl

theorem written_holders (s : State) (b d : BankId) (v : Word) :
    ((written s b v).bank d).holders = (s.bank d).holders := by
  rw [written, State.bank_setBank]
  split
  next heq => rw [heq]
  next => rfl

theorem holdsAgree_move {i : Instr} {s t : State} (hs : HoldsAgree s) (h : Move i s t) :
    HoldsAgree t := by
  cases h with
  | book u hu _ _ =>
    rw [hu]
    exact hs
  | chan c y h => exact holdsAgree_chan hs (sameRun_of_chanMove h)
  | leave c y hrun h => exact holdsAgree_leave hs hrun (not_run_of_chanLeave h)
  | start c _ hwait _ hmap => exact holdsAgree_start hs hwait hmap
  | engine e hstate hcurrent _ _ =>
    exact holdsAgree_of_engine_same hs (fun _ => SameRun.refl _) (fun _ => rfl)
      (fun _ => ⟨rfl, rfl, Iff.rfl⟩) (by rw [hstate]) fun _ => hcurrent
  | unpost r hpost =>
    exact holdsAgree_of_engine_same hs (fun _ => SameRun.refl _) (fun _ => rfl)
      (fun _ => ⟨rfl, rfl, Iff.rfl⟩) (by simp [hpost]) fun h => by simp [hpost] at h
  | showNext _ =>
    rw [showNext_spec]
    exact hs
  | unrequest m =>
    exact holdsAgree_of_engine_same hs
      (fun c => by rw [State.wakeMap_chan]; exact sameRun_wakeForMap _ m) (fun _ => rfl)
      (fun _ => ⟨rfl, rfl, Iff.rfl⟩) Iff.rfl fun _ => rfl
  | enter r hidle _ hstart => exact holdsAgree_enter hs hidle hstart
  | fail r hidle _ _ => exact holdsAgree_fail hs hidle
  | cell c _ _ _ => exact holdsAgree_cell hs c
  | finish c hbuilding _ _ =>
    rw [finished_spec]
    exact holdsAgree_end hs ((hs.1 _).2 ⟨hbuilding, rfl⟩) rfl rfl (by simp [finishedMap]) rfl
      (fun d => (s.wakeMap_chan _ d).symm ▸ sameRun_wakeForMap _ _) (by simp)
  | abort m hbuilding =>
    rw [aborted_spec]
    exact holdsAgree_end hs hbuilding rfl rfl (by simp) rfl
      (fun d => (s.wakeMap_chan _ d).symm ▸ sameRun_wakeForMap _ _) (by simp)
  | commit b _ _ =>
    refine holdsAgree_notice hs b (fun c => ?_) (commit_holders s b) (commit_map s b)
      (commit_engine s b).1
    rw [commit_chan]
    exact sameRun_wakeForBank _ b
  | write b v _ _ _ =>
    rw [directWrite_eq_notice]
    refine holdsAgree_notice (s := s) hs b (fun c => ?_) (fun d => ?_) (notice_map _ b)
      (notice_engine _ b).1
    · have hkept : ((written s b v).notice b).chan c = s.chan c := by
        rw [State.chan, State.notice_channels]
        rfl
      rw [hkept]
      exact SameRun.refl _
    · rw [State.bank, State.notice_banks]
      exact written_holders s b d v
  | softReset _ _ => exact holdsAgree_softReset s
  | fullReset _ => exact holdsAgree_fullReset s
  | display | darken | settings | claim | unclaim | insert | request | stage | sealRecords | defer
  | port => exact hs

/-- Settles O54: a channel's holds come and go with its state RUN (`holdsAgree_start`,
`holdsAgree_leave`), the engine's with its BUILDING (`holdsAgree_enter`, `holdsAgree_end`), and
every other move leaves the counts and the holders. -/
theorem everyStepKeepsTheHolderCounts : Obligations.EveryStepKeepsTheHolderCounts :=
  fun _ _ hs h =>
    step_keeps (fun _ _ hu => hu) (fun _ _ _ hu hmove => holdsAgree_move hu hmove) hs h

end Sys2Proof.Proofs
end

section
/-! PROOFS. The laws of one event from before to after: a bank's entries and generation change once,
at a commit or a direct write (R14, R24); the display bank stays between frame starts (R23, R32); a
segment reads one version of its tables (R24, R90); host-fault flags stay set (R178). -/

namespace Sys2Proof.Proofs

open Sys2Proof Sys2Proof.Machine Sys2Proof.Safety

/-! ## What changes a bank -/

/-- The bank's entries and generation stay. -/
def SameBank (s t : State) (b : BankId) : Prop :=
  (t.bank b).entries = (s.bank b).entries ∧ (t.bank b).generation = (s.bank b).generation

section
variable {i : Instr} {s t u : State}

theorem SameBank.refl (s : State) (b : BankId) : SameBank s s b := ⟨rfl, rfl⟩

theorem SameBank.trans {b : BankId} (h : SameBank s t b) (h' : SameBank t u b) : SameBank s u b :=
  ⟨h'.1.trans h.1, h'.2.trans h.2⟩

theorem sameBank_of_bank {b : BankId} (h : t.bank b = s.bank b) : SameBank s t b := by
  rw [SameBank, h]
  exact ⟨rfl, rfl⟩

/-- Exchanging one bank's holder count leaves every bank's entries and generation. -/
theorem sameBank_of_holders {k : BankId} {n : Nat}
    (h : t.banks = s.banks.set k { s.bank k with holders := n }) (b : BankId) : SameBank s t b := by
  rw [SameBank, State.bank, h, PerBank.get_set]
  split
  next heq => rw [heq]; exact ⟨rfl, rfl⟩
  next => exact ⟨rfl, rfl⟩

theorem commit_bank_other {b d : BankId} (h : d ≠ b) : (s.commit b).bank d = s.bank d := by
  rw [commit_bank, if_neg h]

theorem directWrite_bank (s : State) (b d : BankId) (v : Word) :
    (s.directWrite b s.port.index (Entry.ofWord v)).bank d = (written s b v).bank d := by
  rw [directWrite_eq_notice, State.bank, State.notice_banks]
  rfl

theorem written_bank_other {b d : BankId} (v : Word) (h : d ≠ b) :
    (written s b v).bank d = s.bank d := by
  rw [written, State.bank_setBank, if_neg h]

/-- A bank's entries and generation are changed by its commit, a direct write to it, and a full
reset alone (R24). -/
theorem sameBank_of_move (h : Move i s t) (b : BankId) :
    SameBank s t b ∨
    (t = s.commit b ∧ (s.commitOf b = .pending ∧ (s.bank b).holders = 0 ∧
      (s.hasRole b = false ∨ i = .frameStart) ∨ s.commitOf b = .deferred)) ∨
    (∃ v, i = .apDataWrite v ∧ s.port.target = .bank b ∧ s.acceptsWrite b = true ∧
      t = (written s b v).notice b) ∨ (i = .fullReset ∧ t = s.fullReset) := by
  cases h with
  | book u hu _ _ =>
    rw [hu]
    exact .inl ⟨rfl, rfl⟩
  | showNext _ =>
    rw [showNext_spec]
    exact .inl ⟨rfl, rfl⟩
  | leave c y _ _ => exact .inl (by rw [SameBank, dropHolds_bank]; exact ⟨rfl, rfl⟩)
  | start c _ _ _ _ => exact .inl (by rw [SameBank, takeHolds_bank]; exact ⟨rfl, rfl⟩)
  | enter r _ _ _ => exact .inl (by rw [SameBank, enterBuilding_bank]; exact ⟨rfl, rfl⟩)
  | cell c _ _ _ =>
    rw [writeCell_spec]
    exact .inl ⟨rfl, rfl⟩
  | finish c _ _ _ =>
    rw [finished_spec]
    exact .inl (sameBank_of_holders rfl b)
  | abort m _ =>
    rw [aborted_spec]
    exact .inl (sameBank_of_holders rfl b)
  | commit d _ hpoint =>
    by_cases heq : b = d
    · rw [heq]
      exact .inr (.inl ⟨rfl, hpoint⟩)
    · exact .inl (sameBank_of_bank (commit_bank_other heq))
  | write d v hi htarget haccepts =>
    by_cases heq : b = d
    · rw [heq]
      exact .inr (.inr (.inl ⟨v, hi, htarget, haccepts, rfl⟩))
    · exact .inl (sameBank_of_bank ((directWrite_bank s d b v).trans (written_bank_other v heq)))
  | softReset _ _ => exact .inl (by cases b <;> exact ⟨rfl, rfl⟩)
  | fullReset hi => exact .inr (.inr (.inr ⟨hi, rfl⟩))
  | display | darken | settings | claim | unclaim | insert | chan | engine | unpost | request
  | unrequest | fail | stage | sealRecords | defer | port => exact .inl ⟨rfl, rfl⟩

/-- A bank without sealed records gets some only by a SEAL (R43). -/
theorem commitOf_none_of_move {b : BankId} (hseal : ∀ n, i ≠ .stgCmdSeal b n) (h : Move i s t)
    (hnone : s.commitOf b = .none) : t.commitOf b = .none := by
  cases h with
  | book u hu _ _ =>
    rw [hu]
    exact hnone
  | showNext _ =>
    rw [showNext_spec, State.commitOf]
    dsimp only
    split
    next hdeferred =>
      rw [PerBank.get_set, if_neg]
      · exact hnone
      · rintro rfl
        simp [hnone] at hdeferred
    next => exact hnone
  | leave c y _ _ =>
    rw [dropHolds_spec]
    exact hnone
  | start c _ _ _ _ =>
    rw [State.takeHolds_spec]
    exact hnone
  | enter r _ _ _ =>
    rw [enterBuilding_eq]
    exact hnone
  | cell c _ _ _ =>
    rw [writeCell_spec]
    exact hnone
  | finish c _ _ _ =>
    rw [finished_spec]
    exact hnone
  | abort m _ =>
    rw [aborted_spec]
    exact hnone
  | sealRecords d n hi _ =>
    have hne : b ≠ d := by
      rintro rfl
      exact hseal n hi
    exact (PerBank.get_set_other _ _ _ _ hne).trans hnone
  | commit d _ _ =>
    rw [commit_commitOf]
    split <;> simp [hnone]
  | defer d hpending _ _ =>
    rw [State.commitOf_setCommit, if_neg]
    · exact hnone
    · rintro rfl
      simp [hnone] at hpending
  | write d v _ _ _ =>
    rw [directWrite_eq_notice, State.commitOf, State.notice_uq]
    exact hnone
  | softReset _ _ => cases b <;> rfl
  | fullReset _ => exact commitOf_fullReset s b
  | display | darken | settings | claim | unclaim | insert | chan | engine | unpost | request
  | unrequest | fail | stage | port => exact hnone

/-! ## A bank changes once in an event (R14, R24) -/

/-- Nothing of the bank changes and it gets no sealed records; or, with sealed records, it is
committed once. -/
def ChangedOnce (b : BankId) (s t : State) : Prop :=
  (SameBank s t b ∧ (s.commitOf b = .none → t.commitOf b = .none)) ∨
    ((t.bank b).generation = (s.bank b).generation + 1 ∧ s.commitOf b ≠ .none ∧
      t.commitOf b = .none)

theorem ChangedOnce.trans {b : BankId} (h : ChangedOnce b s t) (h' : ChangedOnce b t u) :
    ChangedOnce b s u := by
  obtain ⟨hsame, hnone⟩ | ⟨hgen, hsealed, hclear⟩ := h
  · obtain ⟨hsame', hnone'⟩ | ⟨hgen', hsealed', hclear'⟩ := h'
    · exact .inl ⟨hsame.trans hsame', fun h => hnone' (hnone h)⟩
    · exact .inr ⟨by rw [hgen', hsame.2], mt hnone hsealed', hclear'⟩
  · obtain ⟨hsame', hnone'⟩ | ⟨-, hsealed', -⟩ := h'
    · exact .inr ⟨by rw [hsame'.2, hgen], hsealed, hnone' hclear⟩
    · exact absurd hclear hsealed'

theorem commit_changes (s : State) {b : BankId} (h : s.commitOf b ≠ .none) :
    ChangedOnce b s (s.commit b) :=
  .inr ⟨by rw [commit_bank, if_pos rfl], h, by rw [commit_commitOf, if_pos rfl]⟩

/-- A chain that makes no SEAL of the bank, no direct write and no full reset changes it once at
most. -/
theorem changedOnce_of_moves {b : BankId} (hseal : ∀ n, i ≠ .stgCmdSeal b n)
    (hwrite : ∀ v, i ≠ .apDataWrite v) (hreset : i ≠ .fullReset) (h : Moves i s t) :
    ChangedOnce b s t := by
  refine h.keep (P := ChangedOnce b s) (fun u v hu hmove => hu.trans ?_)
    (.inl ⟨SameBank.refl s b, id⟩)
  obtain hsame | ⟨rfl, hpoint⟩ | ⟨x, hx, -⟩ | ⟨hx, -⟩ := sameBank_of_move hmove b
  · exact .inl ⟨hsame, commitOf_none_of_move hseal hmove⟩
  · refine commit_changes u ?_
    obtain ⟨hpending, -⟩ | hdeferred := hpoint
    · simp [hpending]
    · simp [hdeferred]
  · exact absurd hx (hwrite x)
  · exact absurd hx hreset

/-- The law of R14 and R24 for one event. -/
def CountsChange (i : Instr) (s t : State) (b : BankId) : Prop :=
  SameBank s t b ∨ ((t.bank b).generation = (s.bank b).generation + 1 ∧
    (s.sealedPending b = true ∨ (∃ n, i = .stgCmdSeal b n) ∨
      (∃ v, i = .apDataWrite v) ∧ s.port.target = .bank b))

theorem countsChange_of_changedOnce {b : BankId} (h : ChangedOnce b s t) : CountsChange i s t b :=
  h.imp (·.1) fun ⟨hgen, hsealed, _⟩ => ⟨hgen, .inl ((sealedPending_iff s b).2 hsealed)⟩

/-- A SEAL changes its bank by the commit that it may bring about in the same event (R44). -/
theorem countsChange_seal {b : BankId} {n : Bool} (h : exec (.stgCmdSeal b n) s = .next t) :
    CountsChange (.stgCmdSeal b n) s t b := by
  cases hfree : s.port.stretched with
  | true =>
    rw [exec, execStgCmdSeal, onBus_of_stretched _ hfree] at h
    exact .inl (eq_of_next h ▸ SameBank.refl s b)
  | false =>
    by_cases hclosed : ∃ r ∈ s.uq.records, r.bank = b ∧ r.state = .closed
    · rw [exec_stgCmdSeal_of_closed hfree hclosed] at h
      have hmoves : Moves .tick (afterSeal s b n) t :=
        eq_of_next h ▸ (judgeBank_moves (s := afterSeal s b n) b).look
      obtain ⟨hsame, -⟩ | ⟨hgen, -, -⟩ :=
        changedOnce_of_moves (b := b) (by simp) (by simp) (by simp) hmoves
      · exact .inl hsame
      · exact .inr ⟨hgen, .inr (.inl ⟨n, rfl⟩)⟩
    · rw [exec_stgCmdSeal_of_none_closed hfree (by simpa using hclosed)] at h
      exact .inl (eq_of_next h ▸ SameBank.refl s b)

theorem acceptsWrite_iff (s : State) (b : BankId) : s.acceptsWrite b = true ↔
    (s.bank b).holders = 0 ∧ s.hasRole b = false ∧ s.commitOf b = .none := by
  simp only [State.acceptsWrite, Bool.and_eq_true, Bool.not_eq_true', decide_eq_true_eq, and_assoc,
    State.sealedPending, decide_eq_false_iff_not, not_not, ne_eq]

/-- A write of AP_DATA changes the bank it writes, which has no sealed records, by the write alone.
-/
theorem countsChange_write {b : BankId} {v : Word} (h : exec (.apDataWrite v) s = .next t) :
    CountsChange (.apDataWrite v) s t b := by
  rw [exec, execApDataWrite] at h
  obtain rfl | ht := onBus_next_cases h
  · exact .inl (SameBank.refl _ b)
  dsimp only at ht
  split at ht
  next d htarget =>
    split at ht
    next haccepts =>
      generalize hu : s.directWrite d s.port.index (Entry.ofWord v) = u at ht
      have hmoves : Moves .tick u t := ht ▸ (port_moves .advance).look
      have honce : ChangedOnce b u t :=
        changedOnce_of_moves (by simp) (by simp) (by simp) hmoves
      have hbank : u.bank b = (written s d v).bank b := hu ▸ directWrite_bank s d b v
      have hcommit : u.commitOf b = s.commitOf b := by
        rw [← hu, directWrite_eq_notice, State.commitOf, State.notice_uq]
        rfl
      by_cases heq : b = d
      · subst heq
        have hnone : u.commitOf b = .none := hcommit.trans ((acceptsWrite_iff s b).1 haccepts).2.2
        obtain ⟨⟨-, hgen⟩, -⟩ | ⟨-, hsealed, -⟩ := honce
        · refine .inr ⟨?_, .inr (.inr ⟨⟨v, rfl⟩, htarget⟩)⟩
          rw [hgen, hbank, written, State.bank_setBank_same]
        · exact absurd hnone hsealed
      · have hsame : SameBank s u b := sameBank_of_bank (hbank.trans (written_bank_other v heq))
        obtain ⟨hlater, -⟩ | ⟨hgen, hsealed, -⟩ := honce
        · exact .inl (hsame.trans hlater)
        · rw [hcommit] at hsealed
          exact .inr ⟨by rw [hgen, hsame.2], .inl ((sealedPending_iff s b).2 hsealed)⟩
    next => exact .inl (ht ▸ ⟨rfl, rfl⟩)
  next => exact .inl (ht ▸ ⟨rfl, rfl⟩)

/-- Settles O23: a commit needs sealed records and leaves none, and only a SEAL makes some, so a
chain of moves commits a bank once (`changedOnce_of_moves`); the SEAL and the direct write come
before theirs. -/
theorem generationCountsEveryChangeOfABank : Obligations.GenerationCountsEveryChangeOfABank := by
  unfold Obligations.GenerationCountsEveryChangeOfABank
  intro i s t b hreset h
  change CountsChange i s t b
  by_cases hseal : ∃ n, i = .stgCmdSeal b n
  · obtain ⟨n, rfl⟩ := hseal
    exact countsChange_seal h
  by_cases hwrite : ∃ v, i = .apDataWrite v
  · obtain ⟨v, rfl⟩ := hwrite
    exact countsChange_write h
  exact countsChange_of_changedOnce (changedOnce_of_moves (not_exists.1 hseal)
    (not_exists.1 hwrite) hreset (exec_moves h))

/-! ## The display bank between frame starts (R23, R32) -/

theorem hasRole_iff (s : State) (b : BankId) :
    s.hasRole b = true ↔ s.scanout.state = .on ∧ s.scanout.current = b := decide_eq_true_iff

/-- Only a frame start shows a bank, and only a frame start exchanges the bank shown (R158). -/
theorem display_of_move (hi : i ≠ .frameStart) (h : Move i s t) (hon : t.scanout.state = .on) :
    s.scanout.state = .on ∧ t.scanout.current = s.scanout.current := by
  have hkept {u : State} (hu : u.scanout = s.scanout) (h : u.scanout.state = .on) :
      s.scanout.state = .on ∧ u.scanout.current = s.scanout.current := by
    rw [hu] at h ⊢
    exact ⟨h, rfl⟩
  cases h with
  | book u hu _ _ => exact hkept (by rw [hu]) hon
  | display x hstate hcurrent => exact ⟨hstate ▸ hon, hcurrent⟩
  | darken x hx => exact absurd hon hx
  | showNext hi' => exact absurd hi' hi
  | leave c y _ _ => exact hkept (by rw [dropHolds_spec]; rfl) hon
  | start c _ _ _ _ => exact hkept (by rw [State.takeHolds_spec]; rfl) hon
  | enter r _ _ _ => exact hkept (s.enterBuilding_scanout r) hon
  | cell c _ _ _ => exact hkept (by rw [writeCell_spec]) hon
  | finish c _ _ _ => exact hkept (by rw [finished_spec]) hon
  | abort m _ => exact hkept (by rw [aborted_spec]) hon
  | commit b _ _ => exact hkept (s.commit_scanout b) hon
  | write b v _ _ _ => exact hkept (by rw [directWrite_eq_notice, State.notice_scanout]; rfl) hon
  | fullReset _ => exact absurd hon (show ScanoutState.off ≠ .on by decide)
  | settings | claim | unclaim | insert | chan | engine | unpost | request | unrequest | fail
  | stage
  | sealRecords | defer | port | softReset => exact hkept rfl hon

/-- Settles O17: no move but those of a frame start and a full reset changes the bank shown
(`display_of_move`), and no commit or direct write goes to a bank that has the display role. -/
theorem displayBankIsStableBetweenFrameStarts :
    Obligations.DisplayBankIsStableBetweenFrameStarts := by
  unfold Obligations.DisplayBankIsStableBetweenFrameStarts
  intro i s t hs hframe hreset h hbefore hafter
  have hlaw := (exec_moves h).keep (P := fun u => CommitsAgree u ∧ (u.scanout.state = .on →
      u.scanout.current = s.scanout.current ∧ SameBank s u s.scanout.current))
    (fun u v hu hmove => ⟨commitsAgree_move hu.1 hmove, fun hon => ?_⟩)
    ⟨hs, fun _ => ⟨rfl, SameBank.refl s _⟩⟩
  · exact hlaw.2 hafter
  obtain ⟨hagree, hshown⟩ := hu
  obtain ⟨hon', hcurrent⟩ := display_of_move hframe hmove hon
  obtain ⟨hsame, hentries⟩ := hshown hon'
  have hrole : u.hasRole s.scanout.current = true := (hasRole_iff u _).2 ⟨hon', hsame⟩
  refine ⟨hcurrent.trans hsame, hentries.trans ?_⟩
  obtain hbank | ⟨-, ⟨-, -, hfree | hi⟩ | hdeferred⟩ | ⟨-, -, -, haccepts, -⟩ | ⟨hi, -⟩ :=
    sameBank_of_move hmove s.scanout.current
  · exact hbank
  · simp [hrole] at hfree
  · exact absurd hi hframe
  · simp [((hagree _).2 hdeferred).2] at hrole
  · simp [((acceptsWrite_iff u _).1 haccepts).2.1] at hrole
  · exact absurd hi hreset

/-! ## One version of a segment's tables (R24, R90, R111) -/

theorem chan_softReset (s : State) (c : Chan) : s.softReset.chan c = Channel.reset := by
  cases c <;> rfl

/-- A channel that is in RUN after a move was so before it, with its context, unless its segment
started. -/
theorem run_of_move {c : Chan} (hi : i ≠ .segmentStartAttempt c) (h : Move i s t)
    (hrun : (t.chan c).state = .run) :
    (s.chan c).state = .run ∧ (t.chan c).ctx = (s.chan c).ctx := by
  have hkept {y : Channel} (hy : SameRun (s.chan c) y) (h : y.state = .run) :
      (s.chan c).state = .run ∧ y.ctx = (s.chan c).ctx := ⟨hy.1.1 h, hy.2 (hy.1.1 h)⟩
  have hchannels (ht : t.channels = s.channels) :
      (s.chan c).state = .run ∧ (t.chan c).ctx = (s.chan c).ctx := by
    have hchan : t.chan c = s.chan c := congrArg (·.get c) ht
    rw [hchan] at hrun ⊢
    exact ⟨hrun, rfl⟩
  cases h with
  | book u hu _ _ => exact hchannels (by rw [hu])
  | showNext _ => exact hchannels (by rw [showNext_spec])
  | chan d y hy =>
    rw [State.chan_setChan] at hrun ⊢
    split at hrun
    next heq =>
      rw [if_pos heq]
      exact hkept (heq ▸ sameRun_of_chanMove hy) hrun
    next hne =>
      rw [if_neg hne]
      exact ⟨hrun, rfl⟩
  | leave d y _ hy =>
    have hchan : (dropHolds (s.setChan d y) (s.chan d).ctx).chan c = (s.setChan d y).chan c := by
      rw [dropHolds_spec]
      rfl
    rw [hchan, State.chan_setChan] at hrun ⊢
    split at hrun
    next => exact absurd hrun (not_run_of_chanLeave hy)
    next hne =>
      rw [if_neg hne]
      exact ⟨hrun, rfl⟩
  | start d hd _ _ _ =>
    have hne : c ≠ d := by
      rintro rfl
      exact hi hd
    rw [takeHolds_chan, setChan_other _ hne] at hrun ⊢
    exact ⟨hrun, rfl⟩
  | unrequest m =>
    rw [State.wakeMap_chan] at hrun ⊢
    exact hkept (sameRun_wakeForMap _ m) hrun
  | enter r _ _ _ => exact hchannels (s.enterBuilding_channels r)
  | fail r _ _ _ =>
    rw [failedStart, State.wakeMap_chan] at hrun ⊢
    exact hkept (sameRun_wakeForMap _ _) hrun
  | cell x _ _ _ => exact hchannels (by rw [writeCell_spec])
  | finish x _ _ _ =>
    have hchan : (finished s s.engine.current x).chan c = (s.wakeMap s.engine.current).chan c := by
      rw [finished_spec]
      rfl
    rw [hchan, State.wakeMap_chan] at hrun ⊢
    exact hkept (sameRun_wakeForMap _ _) hrun
  | abort m _ =>
    have hchan : (aborted s m).chan c = (s.wakeMap m).chan c := by
      rw [aborted_spec]
      rfl
    rw [hchan, State.wakeMap_chan] at hrun ⊢
    exact hkept (sameRun_wakeForMap _ _) hrun
  | commit b _ _ =>
    rw [commit_chan] at hrun ⊢
    exact hkept (sameRun_wakeForBank _ b) hrun
  | write b v _ _ _ =>
    exact hchannels (by rw [directWrite_eq_notice, State.notice_channels]; rfl)
  | softReset _ _ =>
    rw [chan_softReset] at hrun
    exact absurd hrun (by decide)
  | fullReset _ =>
    rw [chan_fullReset] at hrun
    exact absurd hrun (by decide)
  | display | darken | settings | claim | unclaim | insert | engine | unpost | request | stage
  | sealRecords | defer | port => exact hchannels rfl

/-- The map's cells, parameters and generation stay. -/
def SameMap (s t : State) (m : MapId) : Prop :=
  (t.map m).cells = (s.map m).cells ∧ (t.map m).params = (s.map m).params ∧
    (t.map m).generation = (s.map m).generation

theorem SameMap.trans {m : MapId} (h : SameMap s t m) (h' : SameMap t u m) : SameMap s u m :=
  ⟨h'.1.trans h.1, h'.2.1.trans h.2.1, h'.2.2.trans h.2.2⟩

theorem sameMap_of_mapAfterChange {m : MapId} {b : BankId}
    (h : t.map m = mapAfterChange (s.map m) b) : SameMap s t m := by
  rw [SameMap, h, (mapAfterChange_frame (s.map m) b).1]
  exact ⟨rfl, rfl, rfl⟩

/-- Exchanging a map without holds leaves every held one. -/
theorem sameMap_of_set {k : MapId} {x : ReductionMap} (h : t.maps = s.maps.set k x)
    (hfree : (s.map k).holders = 0) (m : MapId) : SameMap s t m ∨ (s.map m).holders = 0 := by
  by_cases heq : m = k
  · exact .inr (heq ▸ hfree)
  · have hmap : t.map m = s.map m := by
      rw [State.map, h, PerMap.get_set_other _ _ _ _ heq, State.map]
    exact .inl (by rw [SameMap, hmap]; exact ⟨rfl, rfl, rfl⟩)

/-- A held map keeps cells, parameters and generation over every move but the resets (R90). -/
theorem sameMap_of_move (hs : HoldsAgree s) (h : Move i s t) (m : MapId) :
    (SameMap s t m ∨ (s.map m).holders = 0) ∨ ∀ c, (t.chan c).state ≠ .run := by
  obtain ⟨hagree, -, -, hfree⟩ := hs
  have hcurrent (hbuilding : s.engine.state = .building) :
      (s.map s.engine.current).holders = 0 := hfree _ ((hagree _).2 ⟨hbuilding, rfl⟩)
  have hkept (ht : t.maps = s.maps) :
      (SameMap s t m ∨ (s.map m).holders = 0) ∨ ∀ c, (t.chan c).state ≠ .run := by
    have hmap : t.map m = s.map m := congrArg (·.get m) ht
    exact .inl (.inl (by rw [SameMap, hmap]; exact ⟨rfl, rfl, rfl⟩))
  cases h with
  | book u hu _ _ => exact hkept (by rw [hu])
  | showNext _ => exact hkept (by rw [showNext_spec])
  | leave c y _ _ => exact .inl (.inl (by rw [SameMap, dropHolds_map]; exact ⟨rfl, rfl, rfl⟩))
  | start c _ _ _ _ => exact .inl (.inl (by rw [SameMap, takeHolds_map]; exact ⟨rfl, rfl, rfl⟩))
  | enter r _ _ hstart =>
    exact .inl (sameMap_of_set (by rw [enterBuilding_eq]) ((startable_iff s r).1 hstart).1 m)
  | fail r _ _ hstart =>
    exact .inl (sameMap_of_set (k := r.map) rfl ((startable_iff s r).1 hstart).1 m)
  | cell x hbuilding _ _ =>
    exact .inl (sameMap_of_set (by rw [writeCell_spec]) (hcurrent hbuilding) m)
  | finish x hbuilding _ _ =>
    exact .inl (sameMap_of_set (by rw [finished_spec]) (hcurrent hbuilding) m)
  | abort k hbuilding => exact .inl (sameMap_of_set (by rw [aborted_spec]) (hfree k hbuilding) m)
  | commit b _ _ => exact .inl (.inl (sameMap_of_mapAfterChange (commit_map s b m)))
  | write b v _ _ _ =>
    rw [directWrite_eq_notice]
    exact .inl (.inl (sameMap_of_mapAfterChange (notice_map (written s b v) b m)))
  | softReset _ _ => exact .inr fun c => by rw [chan_softReset]; decide
  | fullReset _ => exact .inr fun c => by rw [chan_fullReset]; decide
  | display | darken | settings | claim | unclaim | insert | chan | engine | unpost | request
  | unrequest | stage | sealRecords | defer | port => exact hkept rfl

/-- The bank of a segment is held (R15). -/
theorem bank_held {c : Chan} (hs : HoldsAgree s) (hrun : (s.chan c).state = .run)
    (hsrc : (s.chan c).ctx.src = .i8) : (s.bank (s.chan c).ctx.bank).holders ≠ 0 := by
  have hone : chanBankHold (s.chan c) (s.chan c).ctx.bank = 1 := by
    rw [chanBankHold_of_run hrun, if_pos ⟨hsrc, rfl⟩]
  rw [hs.2.1, bankHolds]
  cases c <;> omega

/-- The map of a segment is held (R84). -/
theorem map_held {c : Chan} (hs : HoldsAgree s) (hrun : (s.chan c).state = .run)
    (hdst : (s.chan c).ctx.dst = .i8) : (s.map (s.chan c).ctx.map).holders ≠ 0 := by
  have hone : chanMapHold (s.chan c) (s.chan c).ctx.map = 1 := by
    rw [chanMapHold_of_run hrun, if_pos ⟨hdst, rfl⟩]
  rw [hs.2.2.1, mapHolds]
  cases c <;> omega

/-- A held bank is neither committed nor written (R24). -/
theorem sameBank_of_held {b : BankId} (hs : CommitsAgree s) (h : Move i s t)
    (hheld : (s.bank b).holders ≠ 0) (hreset : i ≠ .fullReset) : SameBank s t b := by
  obtain hsame | ⟨-, ⟨-, hfree, -⟩ | hdeferred⟩ | ⟨-, -, -, haccepts, -⟩ | ⟨hi, -⟩ :=
    sameBank_of_move h b
  · exact hsame
  · exact absurd hfree hheld
  · exact absurd ((hs b).2 hdeferred).1 hheld
  · exact absurd ((acceptsWrite_iff s b).1 haccepts).1 hheld
  · exact absurd hi hreset

/-- What a channel in RUN reads is what it read before: its context, its I8 bank, its I8 map. -/
def SameTables (c : Chan) (s t : State) : Prop :=
  (t.chan c).ctx = (s.chan c).ctx ∧
    ((s.chan c).ctx.src = .i8 → SameBank s t (s.chan c).ctx.bank) ∧
    ((s.chan c).ctx.dst = .i8 → SameMap s t (s.chan c).ctx.map)

theorem sameTables_of_move {c : Chan} (hholds : HoldsAgree s) (hcommits : CommitsAgree s)
    (hi : i ≠ .segmentStartAttempt c) (hreset : i ≠ .fullReset) (h : Move i s t)
    (hrun : (t.chan c).state = .run) : (s.chan c).state = .run ∧ SameTables c s t := by
  obtain ⟨hbefore, hctx⟩ := run_of_move hi h hrun
  refine ⟨hbefore, hctx,
    fun hsrc => sameBank_of_held hcommits h (bank_held hholds hbefore hsrc) hreset,
    fun hdst => ?_⟩
  obtain (hsame | hfree) | hnone := sameMap_of_move hholds h (s.chan c).ctx.map
  · exact hsame
  · exact absurd hfree (map_held hholds hbefore hdst)
  · exact absurd hrun (hnone c)

theorem SameTables.trans {c : Chan} (h : SameTables c s t) (h' : SameTables c t u) :
    SameTables c s u := by
  obtain ⟨hctx, hbank, hmap⟩ := h
  obtain ⟨hctx', hbank', hmap'⟩ := h'
  rw [hctx] at hbank' hmap'
  exact ⟨hctx'.trans hctx, fun hsrc => (hbank hsrc).trans (hbank' hsrc),
    fun hdst => (hmap hdst).trans (hmap' hdst)⟩

/-- Settles O60: a channel in RUN holds its tables, and no move changes a held bank
(`sameBank_of_held`) or a held map (`sameMap_of_move`). -/
theorem segmentReadsOneVersionOfItsTables : Obligations.SegmentReadsOneVersionOfItsTables := by
  unfold Obligations.SegmentReadsOneVersionOfItsTables
  intro i s t c hholds hcommits h hbefore hafter
  change SameTables c s t
  by_cases hi : i = .segmentStartAttempt c
  · rw [hi, exec, execSegmentStartAttempt, if_neg (by simp [hbefore])] at h
    rw [eq_of_next h]
    exact ⟨rfl, fun _ => ⟨rfl, rfl⟩, fun _ => ⟨rfl, rfl, rfl⟩⟩
  by_cases hreset : i = .fullReset
  · rw [hreset] at h
    rw [eq_of_next h, chan_fullReset] at hafter
    exact absurd hafter (by decide)
  have hlaw := (exec_moves h).keep (P := fun u => HoldsAgree u ∧ CommitsAgree u ∧
      ((u.chan c).state = .run → SameTables c s u))
    (fun u v ⟨hu, hu', hsame⟩ hmove => ⟨holdsAgree_move hu hmove, commitsAgree_move hu' hmove,
      fun hrun => ?_⟩)
    ⟨hholds, hcommits, fun _ => ⟨rfl, fun _ => ⟨rfl, rfl⟩, fun _ => ⟨rfl, rfl, rfl⟩⟩⟩
  · exact hlaw.2.2 hafter
  · obtain ⟨hrun', hnext⟩ := sameTables_of_move hu hu' hi hreset hmove hrun
    exact (hsame hrun').trans hnext

/-! ## Host-fault flags stay set (R178) -/

theorem flagged_of_move {f : HostFault} (hi : clearsHostFaults i = false) (h : Move i s t)
    (hset : s.flagged f = true) : t.flagged f = true := by
  have hkept (ht : t.hostFaults = s.hostFaults) : t.flagged f = true := by
    rwa [State.flagged, ht]
  cases h with
  | book u hu _ hflags => exact hflags hi f hset
  | showNext _ => exact hkept (by rw [showNext_spec])
  | leave c y _ _ => exact hkept (by rw [dropHolds_spec]; rfl)
  | start c _ _ _ _ => exact hkept (by rw [State.takeHolds_spec]; rfl)
  | enter r _ _ _ => exact hkept (s.enterBuilding_hostFaults r)
  | cell x _ _ _ => exact hkept (by rw [writeCell_spec])
  | finish x _ _ _ => exact hkept (by rw [finished_spec])
  | abort m _ => exact hkept (by rw [aborted_spec])
  | commit b _ _ => exact hkept (s.commit_hostFaults b)
  | write b v _ _ _ => exact hkept (by rw [directWrite_eq_notice, State.notice_hostFaults]; rfl)
  | softReset _ hclears => simp [hi] at hclears
  | fullReset hfull =>
    rw [hfull] at hi
    exact absurd hi (by decide)
  | display | darken | settings | claim | unclaim | insert | chan | engine | unpost | request
  | unrequest | fail | stage | sealRecords | defer | port => exact hkept rfl

theorem flagged_of_moves {f : HostFault} (hi : clearsHostFaults i = false) (h : Moves i s t)
    (hset : s.flagged f = true) : t.flagged f = true :=
  h.keep (P := fun u => u.flagged f = true) (fun _ _ hu hmove => flagged_of_move hi hmove hu) hset

theorem flagged_of_step {f : HostFault}
    (hi : ∀ i rest, s.pending = i :: rest → clearsHostFaults i = false) (h : step s = .next t)
    (hset : s.flagged f = true) : t.flagged f = true := by
  unfold step at h
  split at h
  · rw [eq_of_next h, State.clockCycle]
    split
    · exact flagged_of_moves (i := .tick) rfl tick_moves hset
    · exact hset
  next i rest hpending => exact flagged_of_moves (hi i rest hpending) (exec_moves h) hset

end

/-- HOST_FAULTS reads its flags at their bits, and 0 at every other (Table 11-2). -/
theorem bitAt_hostFaults (x : BitVec 10) (k : Nat) : bitAt (putAt x 0) k = x.getLsbD k := by
  rw [bitAt, putAt, BitVec.shiftLeft_zero, BitVec.getLsbD_setWidth]
  by_cases hk : k < 32
  · simp [hk]
  · simp [hk, BitVec.getLsbD_of_ge x k (by omega)]

/-- Settles O9: flags are bits of one word, so a write clears exactly the bits written as 1; no move
but those of the commands named sets a flag back (`flagged_of_move`). -/
theorem hostFaultFlagsAreSticky : Obligations.HostFaultFlagsAreSticky := by
  unfold Obligations.HostFaultFlagsAreSticky
  refine ⟨fun s f => ⟨rfl, flagged_flag s f⟩, fun v s hfree => ?clear, fun s => ?read,
    fun s t f hi h hset => flagged_of_step hi h hset⟩
  case clear =>
    refine ⟨_, by rw [exec, execHostFaults, onBus_of_free _ hfree], rfl, fun f => ?_⟩
    have hbit : f.bit < 10 := by cases f <;> decide
    simp [State.flagged, bitAt, fieldAt, hbit]
  case read =>
    refine ⟨_, rfl, fun f => bitAt_hostFaults _ _, fun k hk => ?_⟩
    rw [bitAt_hostFaults, BitVec.getLsbD_of_ge _ _ hk]

end Sys2Proof.Proofs
end

section
/-! PROOFS. The law of capacities and shapes over moves (Table 0-2): what a move does to one
channel, to the update records and to the port, and the law of each of these parts. -/

namespace Sys2Proof.Proofs

open Sys2Proof Sys2Proof.Machine Sys2Proof.Safety

/-! ## What a move does to one channel -/

/-- What a move leaves of a channel. -/
inductive ChannelStep (s : State) (c : Chan) : Channel → Prop
  | same : ChannelStep s c (s.chan c)
  | move (y : Channel) : ChanMove s c (s.chan c) y → ChannelStep s c y
  | leave (y : Channel) : (s.chan c).state = .run → ChanLeave s c (s.chan c) y → ChannelStep s c y
  | start : (s.chan c).state = .wait .start →
      ChannelStep s c { s.chan c with state := .run, stall := 0 }
  | wakeBank (b : BankId) : ChannelStep s c ((s.chan c).wakeForBank b)
  | wakeMap (m : MapId) : ChannelStep s c ((s.chan c).wakeForMap m)
  | reset : ChannelStep s c Channel.reset

theorem channelStep_of_channels {s t : State} (h : t.channels = s.channels) (c : Chan) :
    ChannelStep s c (t.chan c) := by
  rw [State.chan, h]
  exact .same

/-- One channel is exchanged for a step of it. -/
theorem channelStep_setChan {s t : State} {d : Chan} {y : Channel}
    (h : t.channels = (s.setChan d y).channels) (hy : ChannelStep s d y) (c : Chan) :
    ChannelStep s c (t.chan c) := by
  have hchan : t.chan c = (s.setChan d y).chan c := congrArg (·.get c) h
  rw [hchan, State.chan_setChan]
  split
  next heq => exact heq ▸ hy
  next => exact .same

theorem channelStep_wakeMap {s t : State} {m : MapId} (h : t.channels = (s.wakeMap m).channels)
    (c : Chan) : ChannelStep s c (t.chan c) := by
  have hchan : t.chan c = (s.wakeMap m).chan c := congrArg (·.get c) h
  rw [hchan, State.wakeMap_chan]
  exact .wakeMap m

theorem Move.channel {i : Instr} {s t : State} (h : Move i s t) (c : Chan) :
    ChannelStep s c (t.chan c) := by
  cases h with
  | book u hu _ _ => exact channelStep_of_channels (by rw [hu]) c
  | showNext _ => exact channelStep_of_channels (by rw [showNext_spec]) c
  | chan d y hy => exact channelStep_setChan rfl (.move y hy) c
  | leave d y hrun hy => exact channelStep_setChan (by rw [dropHolds_spec]) (.leave y hrun hy) c
  | start d _ hwait _ _ => exact channelStep_setChan (by rw [State.takeHolds_spec]) (.start hwait) c
  | unrequest m => exact channelStep_wakeMap (s := s) rfl c
  | enter r _ _ _ => exact channelStep_of_channels (s.enterBuilding_channels r) c
  | fail r _ _ _ => exact channelStep_wakeMap (s := s) rfl c
  | cell x _ _ _ => exact channelStep_of_channels (by rw [writeCell_spec]) c
  | finish x _ _ _ => exact channelStep_wakeMap (by rw [finished_spec]) c
  | abort m _ => exact channelStep_wakeMap (by rw [aborted_spec]) c
  | commit b _ _ =>
    rw [commit_chan]
    exact .wakeBank b
  | write b v _ _ _ =>
    exact channelStep_of_channels (by rw [directWrite_eq_notice, State.notice_channels]; rfl) c
  | softReset _ _ =>
    rw [chan_softReset]
    exact .reset
  | fullReset _ =>
    rw [chan_fullReset]
    exact .reset
  | display | darken | settings | claim | unclaim | insert | engine | unpost | request | stage
  | sealRecords | defer | port => exact channelStep_of_channels rfl c

/-! ## The pixel step a channel can take -/

/-- A pixel step that can be taken (R139, R151). -/
theorem pixelReady_eq_some_iff {s : State} {c : Chan} {job : Job} {r : PixelResult} :
    s.pixelReady c = some (job, r) ↔
      (∃ rest, (s.chan c).jobs = job :: rest) ∧ (s.chan c).state = .run ∧
        (s.chan c).pixelWork job (s.bank (s.chan c).ctx.bank).entries (s.map (s.chan c).ctx.map) =
          some r ∧
        (s.chan c).outFifo.length + r.out.length ≤ 16 := by
  unfold State.pixelReady Config.fifoDepth
  dsimp only
  split
  next hnil => simp [hnil]
  next j rest hjobs =>
    by_cases hrun : (s.chan c).state = .run
    · rw [if_pos hrun]
      split
      next hnone => simp only [hjobs, hrun, List.cons.injEq]; grind
      next r' hwork =>
        simp only [hjobs, hrun, List.cons.injEq]
        grind
    · simp [hrun]

/-- The word in hand leaves the input FIFO as it is, and otherwise the oldest word is taken. -/
theorem nextWord_eq_some_iff {x : Channel} {w : Word} {rest : List Word} :
    x.nextWord = some (w, rest) ↔
      (x.path.inWord = some w ∧ rest = x.inFifo) ∨
        (x.path.inWord = none ∧ x.inFifo = w :: rest) := by
  unfold Channel.nextWord
  split
  next hword => grind
  next hword => split <;> grind

/-- The entry of the channel's next pixel, taken from the word, as it leaves the key step (R140 to
R142). -/
def keyedEntry (x : Channel) (bank : List (Nat × Entry)) (w : Word) : Entry :=
  x.ctx.keyStep (expandPixel x.ctx.src bank
    (x.ctx.src.laneValue w (x.ctx.src.laneOf x.path.next)))

/-- The pixels the edge step releases at the channel's next pixel, and the pixel it holds. -/
def edgeOf (x : Channel) (job : Job) (bank : List (Nat × Entry)) (w : Word) :
    List Released × Option HeldPixel :=
  x.ctx.edge job.width job.count x.path.next (keyedEntry x bank w) x.path.held

/-- The packing of the released pixels. -/
def packOf (x : Channel) (job : Job) (bank : List (Nat × Entry)) (m : ReductionMap) (w : Word) :
    Packing :=
  x.ctx.pack m job (edgeOf x job bank w).1 { word := x.path.outWord, out := [] }

/-- What the step of the channel's next pixel leaves, from the word that holds it. -/
def resultOf (x : Channel) (job : Job) (bank : List (Nat × Entry)) (m : ReductionMap) (w : Word)
    (rest : List Word) : PixelResult :=
  { path := { next := x.path.next + 1
              inWord := wordAfter x.ctx.src job.count x.path.next w
              held := (edgeOf x job bank w).2
              outWord := (packOf x job bank m w).word
              done := x.path.done + (edgeOf x job bank w).1.length }
    inFifo := rest
    out := (packOf x job bank m w).out }

theorem pixelWork_eq (x : Channel) (job : Job) (bank : List (Nat × Entry)) (m : ReductionMap) :
    x.pixelWork job bank m = x.nextWord.map fun p => resultOf x job bank m p.1 p.2 := by
  unfold Channel.pixelWork
  split
  next h => rw [h]; rfl
  next w rest h => rw [h]; rfl

theorem pixelWork_eq_some_iff {x : Channel} {job : Job} {bank : List (Nat × Entry)}
    {m : ReductionMap} {r : PixelResult} : x.pixelWork job bank m = some r ↔
      ∃ w rest, x.nextWord = some (w, rest) ∧ r = resultOf x job bank m w rest := by
  rw [pixelWork_eq, Option.map_eq_some_iff]
  exact ⟨fun ⟨⟨w, rest⟩, hword, hr⟩ => ⟨w, rest, hword, hr.symm⟩,
    fun ⟨w, rest, hword, hr⟩ => ⟨(w, rest), hword, hr.symm⟩⟩

theorem nextWord_length {x : Channel} {w : Word} {rest : List Word}
    (h : x.nextWord = some (w, rest)) : rest.length ≤ x.inFifo.length := by
  obtain ⟨-, rfl⟩ | ⟨-, hfifo⟩ := nextWord_eq_some_iff.1 h
  · exact Nat.le_refl _
  · rw [hfifo]
    exact Nat.le_succ _

/-! ## Channels within their capacities (R114 to R116, R131, R133) -/

/-- With its job current before and after, and the same descriptors, only the FIFOs matter. -/
theorem channelOk_of_job {x y : Channel} (h : ChannelOk x) (hx : x.state.hasJob = true)
    (hy : y.state.hasJob = true) (hjobs : y.jobs = x.jobs) (hin : y.inFifo.length ≤ 16)
    (hout : y.outFifo.length ≤ 16) : ChannelOk y := by
  obtain ⟨hlength, hvalid, -, -, hcurrent, -⟩ := h
  refine ⟨hjobs ▸ hlength, hjobs ▸ hvalid, hin, hout, fun _ => hjobs ▸ hcurrent hx, fun hidle => ?_⟩
  rw [hidle] at hy
  exact absurd hy (by decide)

theorem channelOk_nextJob {x : Channel} (hlength : x.jobs.length ≤ 8)
    (hvalid : ∀ j ∈ x.jobs, j.valid = true) (hin : x.inFifo.length ≤ 16)
    (hout : x.outFifo.length ≤ 16) : ChannelOk x.nextJob := by
  obtain ⟨hnil, h⟩ | ⟨j, rest, hjobs, h⟩ := x.nextJob_cases
  · rw [h]
    exact ⟨hlength, hvalid, hin, hout, fun hjob => by simp [ChanState.hasJob] at hjob,
      fun _ => hnil⟩
  · rw [h]
    exact ⟨hlength, hvalid, hin, hout, fun _ => by simp [hjobs], fun hidle => by simp at hidle⟩

theorem channelOk_reset : ChannelOk Channel.reset :=
  ⟨Nat.zero_le _, fun _ h => absurd h List.not_mem_nil, Nat.zero_le _, Nat.zero_le _,
    fun h => absurd h (by decide), fun _ => rfl⟩

theorem channelOk_chanReset (x : Channel) : ChannelOk x.chanReset := channelOk_reset

theorem hasJob_of_run {w : ChanState} (h : w = .run) : w.hasJob = true := by rw [h]; rfl

theorem channelOk_posted {x : Channel} (h : ChannelOk x) (r : EventRecord)
    (hpost : x.state = .post r) : ChannelOk (x.posted r) := by
  have hjob : x.state.hasJob = true := by rw [hpost]; rfl
  have ⟨hlength, hvalid, hin, hout, _, _⟩ := h
  have htail : x.jobs.tail.length ≤ 8 := by
    rw [List.length_tail]
    omega
  have hrest : ∀ j ∈ x.jobs.tail, j.valid = true := fun j hj => hvalid j (List.mem_of_mem_tail hj)
  have hnext : ChannelOk (Channel.nextJob { x with jobs := x.jobs.tail }) :=
    channelOk_nextJob htail hrest hin hout
  unfold Channel.posted
  split
  · exact channelOk_of_job h hjob rfl rfl hin hout
  · exact ⟨htail, hrest, hin, hout, fun hjob => by simp [ChanState.hasJob] at hjob,
      fun hidle => by simp at hidle⟩
  all_goals exact hnext

/-- A pixel step keeps the FIFOs within their depth. -/
theorem channelOk_withStep {s : State} {c : Chan} {job : Job} {r : PixelResult}
    (h : ChannelOk (s.chan c)) (hready : s.pixelReady c = some (job, r)) {w : ChanState} {n k : Nat}
    (hw : w.hasJob = true) :
    ChannelOk { (s.chan c).withStep r with state := w, stall := n, segment := k } := by
  obtain ⟨-, hrun, hwork, hroom⟩ := pixelReady_eq_some_iff.1 hready
  obtain ⟨v, rest, hword, rfl⟩ := pixelWork_eq_some_iff.1 hwork
  have hout : ((s.chan c).outFifo ++ (resultOf (s.chan c) job (s.bank (s.chan c).ctx.bank).entries
      (s.map (s.chan c).ctx.map) v rest).out).length ≤ 16 := by
    rw [List.length_append]
    exact hroom
  exact channelOk_of_job h (hasJob_of_run hrun) hw rfl ((nextWord_length hword).trans h.2.2.1) hout

theorem channelOk_chanMove {s : State} {c : Chan} {y : Channel} (h : ChannelOk (s.chan c))
    (hmove : ChanMove s c (s.chan c) y) : ChannelOk y := by
  have ⟨hlength, hvalid, hin, hout, hcurrent, hidle⟩ := h
  cases hmove with
  | push j hj hroom =>
    have hlength' : ((s.chan c).jobs ++ [j]).length ≤ 8 := by
      rw [List.length_append]
      exact hroom
    have hvalid' : ∀ k ∈ (s.chan c).jobs ++ [j], k.valid = true := by
      simpa [or_imp, forall_and] using ⟨hvalid, hj⟩
    obtain ⟨hnot, heq⟩ | ⟨-, heq⟩ := push_cases (s.chan c) j
    · rw [heq]
      exact ⟨hlength', hvalid', hin, hout, fun _ => by simp, fun hnow => absurd hnow hnot⟩
    · rw [heq]
      exact channelOk_nextJob hlength' hvalid' hin hout
  | input v hroom =>
    exact ⟨hlength, hvalid, by rw [List.length_append]; exact hroom, hout, hcurrent, hidle⟩
  | output n hfifo =>
    refine ⟨hlength, hvalid, hin, ?_, hcurrent, hidle⟩
    rw [hfifo, List.length_cons] at hout
    exact Nat.le_of_succ_le hout
  | resume _ => exact channelOk_nextJob hlength hvalid hin hout
  | reset _ => exact channelOk_chanReset _
  | waitBank hwait _ => exact channelOk_of_job h (by rw [hwait]; rfl) rfl rfl hin hout
  | waitMap hwait _ => exact channelOk_of_job h (by rw [hwait]; rfl) rfl rfl hin hout
  | fault f _ hjob => exact channelOk_of_job h hjob rfl rfl (Nat.zero_le _) (Nat.zero_le _)
  | posted r hpost => exact channelOk_posted h r hpost
  | pixel job r hready _ _ =>
    exact channelOk_withStep h hready (w := (s.chan c).state)
      (hasJob_of_run (pixelReady_eq_some_iff.1 hready).2.1)
  | context | registers | stall => exact h

theorem channelOk_chanLeave {s : State} {c : Chan} {y : Channel} (h : ChannelOk (s.chan c))
    (hrun : (s.chan c).state = .run) (hleave : ChanLeave s c (s.chan c) y) : ChannelOk y := by
  cases hleave with
  | fault f => exact channelOk_of_job h (hasJob_of_run hrun) rfl rfl (Nat.zero_le _) (Nat.zero_le _)
  | reset => exact channelOk_chanReset _
  | jobEnd job r hready _ => exact channelOk_withStep h hready rfl
  | segmentEnd job r gen hready _ _ =>
    unfold Channel.segmentEnded
    split <;> exact channelOk_withStep h hready rfl

theorem channelOk_step {s : State} {c : Chan} {y : Channel} (h : ChannelOk (s.chan c))
    (hstep : ChannelStep s c y) : ChannelOk y := by
  have ⟨_, _, hin, hout, _, _⟩ := h
  cases hstep with
  | same => exact h
  | move y hmove => exact channelOk_chanMove h hmove
  | leave y hrun hleave => exact channelOk_chanLeave h hrun hleave
  | start hwait => exact channelOk_of_job h (by rw [hwait]; rfl) rfl rfl hin hout
  | wakeBank b =>
    unfold Channel.wakeForBank
    split
    next hwait => exact channelOk_of_job h (by rw [hwait.1]; rfl) rfl rfl hin hout
    next => exact h
  | wakeMap m =>
    unfold Channel.wakeForMap
    split
    next hwait => exact channelOk_of_job h (by rw [hwait.1]; rfl) rfl rfl hin hout
    next => exact h
  | reset => exact channelOk_reset

/-! ## The event queue within its capacity (R164, R166, R172, R173) -/

/-- `EventsOk` says nothing of more than the event queue. -/
def QueueOk (q : EventQueue) : Prop :=
  q.urgentCount + q.routineCount ≤ 32 ∧ q.routineCount ≤ 24 ∧
    (∀ c, q.claim = some c → q.ofClass c ≠ []) ∧
    (q.routine = [] → q.timer = 0 ∧ q.overdue = false) ∧
    1 ≤ q.threshold.toNat ∧ q.threshold.toNat ≤ 24

theorem eventsOk_iff (s : State) : EventsOk s ↔ QueueOk s.eq := Iff.rfl

theorem front_eq_some {q : EventQueue} {k : EventClass} (h : q.front = some k) :
    q.ofClass k ≠ [] := by
  unfold EventQueue.front at h
  split at h
  next hurgent =>
    obtain rfl : EventClass.urgent = k := by simpa using h
    exact hurgent
  next =>
    split at h
    next hroutine =>
      obtain rfl : EventClass.routine = k := by simpa using h
      exact hroutine
    next => simp at h

theorem queueOk_claimFront {q : EventQueue} (h : QueueOk q) : QueueOk q.claimFront := by
  obtain ⟨htotal, hroutine, hclaim, hzero, hthreshold⟩ := h
  unfold EventQueue.claimFront
  split
  · exact ⟨htotal, hroutine, hclaim, hzero, hthreshold⟩
  · exact ⟨htotal, hroutine, fun k hk => front_eq_some hk, hzero, hthreshold⟩

theorem queueOk_removeClaimed {q : EventQueue} (h : QueueOk q) : QueueOk q.removeClaimed := by
  obtain ⟨htotal, hroutine, hclaim, hzero, hthreshold⟩ := h
  unfold EventQueue.urgentCount EventQueue.routineCount at htotal
  unfold EventQueue.routineCount at hroutine
  unfold EventQueue.removeClaimed
  split
  · exact ⟨htotal, hroutine, hclaim, hzero, hthreshold⟩
  · refine ⟨?_, hroutine, fun k hk => by simp at hk, hzero, hthreshold⟩
    simp only [EventQueue.urgentCount, EventQueue.routineCount, List.length_tail]
    omega
  · refine ⟨?_, ?_, fun k hk => by simp at hk, fun hempty => ⟨if_pos hempty, if_pos hempty⟩,
      hthreshold⟩
    · simp only [EventQueue.urgentCount, EventQueue.routineCount, List.length_tail]
      omega
    · simp only [EventQueue.routineCount, List.length_tail]
      omega

theorem queueOk_insert {q : EventQueue} (h : QueueOk q) {r : EventRecord}
    (hroom : q.hasRoom r.cls = true) : QueueOk (q.insert r) := by
  obtain ⟨htotal, hroutine, hclaim, hzero, hthreshold⟩ := h
  have hclass : ∀ k, (q.insert r).claim = some k → (q.insert r).ofClass k ≠ [] := by
    intro k hk
    obtain ⟨l, hl⟩ := ofClass_insert q r k
    rw [hl]
    exact List.append_ne_nil_of_left_ne_nil (hclaim k (claim_insert q r ▸ hk)) l
  unfold EventQueue.urgentCount EventQueue.routineCount at htotal
  unfold EventQueue.routineCount at hroutine
  unfold EventQueue.insert at hclass ⊢
  unfold EventQueue.hasRoom EventQueue.urgentCount EventQueue.routineCount Config.maxEvents
    Config.maxRoutine at hroom
  cases hcls : r.cls with
  | urgent =>
    simp only [hcls, decide_eq_true_eq] at hroom hclass ⊢
    refine ⟨?_, hroutine, hclass, hzero, hthreshold⟩
    simp only [EventQueue.urgentCount, EventQueue.routineCount, List.length_append,
      List.length_singleton]
    omega
  | routine =>
    simp only [hcls, decide_eq_true_eq] at hroom hclass ⊢
    refine ⟨?_, ?_, hclass, fun hempty => absurd hempty (by simp), hthreshold⟩
    · simp only [EventQueue.urgentCount, EventQueue.routineCount, List.length_append,
        List.length_singleton]
      omega
    · simp only [EventQueue.routineCount, List.length_append, List.length_singleton]
      omega

theorem queueOk_reset : QueueOk EventQueue.reset :=
  ⟨by decide, by decide, fun k hk => absurd hk (by simp [EventQueue.reset]), fun _ => ⟨rfl, rfl⟩,
    by decide, by decide⟩

theorem queueOk_move {i : Instr} {q p : EventQueue} (h : QueueOk q) (hmove : QueueMove i q p) :
    QueueOk p := by
  cases hmove with
  | same => exact h
  | settings p hurgent hroutine hclaim hzero hthreshold =>
    obtain ⟨hcount, hcount', hclass, hempty, hrange⟩ := h
    have hof (k : EventClass) : p.ofClass k = q.ofClass k := by
      cases k
      · exact hurgent
      · exact hroutine
    refine ⟨?_, ?_, fun k hk => ?_, fun hnone => ?_, hthreshold hrange⟩
    · rw [EventQueue.urgentCount, EventQueue.routineCount, hurgent, hroutine]
      exact hcount
    · rw [EventQueue.routineCount, hroutine]
      exact hcount'
    · rw [hof]
      exact hclass k (hclaim ▸ hk)
    · exact hzero (hroutine ▸ hnone) (hempty (hroutine ▸ hnone))
  | claim => exact queueOk_claimFront h
  | unclaim _ => exact queueOk_removeClaimed h
  | insert r hroom => exact queueOk_insert h hroom
  | softReset _ =>
    obtain ⟨hcount, hcount', hclass, hempty, -⟩ := queueOk_reset
    exact ⟨hcount, hcount', hclass, hempty, h.2.2.2.2⟩
  | fullReset _ => exact queueOk_reset

end Sys2Proof.Proofs
end

section
/-! PROOFS. What a move does to the update records, the banks' entries and the port, the law of
capacities and shapes (Table 0-2), and the law of the prefetch (R63, R65, R67). -/

namespace Sys2Proof.Proofs

open Sys2Proof Sys2Proof.Machine Sys2Proof.Safety

/-! ## The update records (R36 to R41) -/

/-- The SEAL of the bank's CLOSED records (R43). -/
def sealedRecord (b : BankId) (n : Bool) (r : UpdateRecord) : UpdateRecord :=
  if r.bank = b ∧ r.state = .closed then { r with state := .sealed, notify := n } else r

/-- What a move leaves of the update records. -/
inductive RecordsStep (q : UpdateQueue) : List UpdateRecord → Prop
  | same : RecordsStep q q.records
  | stage (l : List UpdateRecord) : StageMove q l → RecordsStep q l
  | sealed (b : BankId) (n : Bool) : RecordsStep q (q.records.map (sealedRecord b n))
  | fewer (l : List UpdateRecord) : l.Sublist q.records → RecordsStep q l

theorem Move.records {i : Instr} {s t : State} (h : Move i s t) :
    RecordsStep s.uq t.uq.records := by
  have hkept (ht : t.uq = s.uq) : RecordsStep s.uq t.uq.records := by
    rw [ht]
    exact .same
  cases h with
  | book u hu _ _ => exact hkept (by rw [hu])
  | showNext _ =>
    rw [showNext_spec]
    exact .same
  | leave c y _ _ => exact hkept (by rw [dropHolds_spec]; rfl)
  | start c _ _ _ _ => exact hkept (by rw [State.takeHolds_spec]; rfl)
  | enter r _ _ _ => exact hkept (s.enterBuilding_uq r)
  | cell x _ _ _ => exact hkept (by rw [writeCell_spec])
  | finish x _ _ _ => exact hkept (by rw [finished_spec])
  | abort m _ => exact hkept (by rw [aborted_spec])
  | stage l hl => exact .stage l hl
  | sealRecords b n _ _ => exact .sealed b n
  | commit b _ _ =>
    rw [commit_uq]
    exact .fewer _ List.filter_sublist
  | write b v _ _ _ => exact hkept (by rw [directWrite_eq_notice, State.notice_uq]; rfl)
  | softReset _ _ => exact .fewer _ (List.nil_sublist _)
  | fullReset _ => exact .fewer _ (List.nil_sublist _)
  | defer b _ _ _ => exact .same
  | display | darken | settings | claim | unclaim | insert | chan | engine | unpost | request
  | unrequest | fail | port => exact .same

/-- `StagingOk` says nothing of more than the update records. -/
def RecordsOk (l : List UpdateRecord) : Prop :=
  l.length ≤ 32 ∧ (l.map fun r => r.count).sum ≤ 128 ∧ (∀ r ∈ l, RecordOk r) ∧
    (l.filter fun r => decide (r.state = .opened)).length ≤ 1

theorem stagingOk_iff (s : State) : StagingOk s ↔ RecordsOk s.uq.records := Iff.rfl

theorem recordsOk_sublist {l k : List UpdateRecord} (h : RecordsOk l) (hk : k.Sublist l) :
    RecordsOk k := by
  obtain ⟨hlength, hwords, hshape, hopen⟩ := h
  exact ⟨hk.length_le.trans hlength,
    ((hk.map fun r => r.count).sum_le_sum fun _ _ => Nat.zero_le _).trans hwords,
    fun r hr => hshape r (hk.subset hr), (hk.filter _).length_le.trans hopen⟩

/-- A change of each record by itself that keeps its run and shape, and opens none. -/
theorem recordsOk_map {l : List UpdateRecord} {f : UpdateRecord → UpdateRecord} (h : RecordsOk l)
    (hcount : ∀ r, (f r).count = r.count) (hok : ∀ r, RecordOk r → RecordOk (f r))
    (hopens : ∀ r, (f r).state = .opened → r.state = .opened) : RecordsOk (l.map f) := by
  obtain ⟨hlength, hwords, hshape, hopen⟩ := h
  refine ⟨by rwa [List.length_map], ?_, ?_, ?_⟩
  · rw [List.map_map]
    simpa only [Function.comp_def, hcount] using hwords
  · simpa using fun r hr => hok r (hshape r hr)
  · rw [← List.countP_eq_length_filter] at hopen ⊢
    rw [List.countP_map]
    refine (List.countP_mono_left fun r _ hr => ?_).trans hopen
    exact decide_eq_true (hopens r (of_decide_eq_true hr))

theorem recordOk_append {r : UpdateRecord} (e : Entry) (h : RecordOk r) :
    RecordOk (r.append e) := by
  by_cases hstate : r.state = .opened
  · obtain ⟨hone, height, hrun, hshort, -⟩ := h
    have hroom := hshort hstate
    rw [append_of_open hstate]
    refine ⟨hone, height, hrun, ?_, ?_⟩ <;> dsimp only <;>
      rw [List.length_append, List.length_singleton] <;> split
    · intro hopen
      simp at hopen
    · omega
    · omega
    · intro hclosed
      simp at hclosed
  · rwa [append_of_not_open hstate]

theorem recordOk_sealedRecord {r : UpdateRecord} (b : BankId) (n : Bool) (h : RecordOk r) :
    RecordOk (sealedRecord b n r) := by
  unfold sealedRecord
  split
  next hclosed =>
    obtain ⟨hone, height, hrun, -, hfull⟩ := h
    exact ⟨hone, height, hrun, fun hopen => by simp at hopen, fun _ => hfull (by simp [hclosed.2])⟩
  next => exact h

theorem append_count (r : UpdateRecord) (e : Entry) : (r.append e).count = r.count := by
  unfold UpdateRecord.append
  split <;> rfl

theorem opened_of_append {r : UpdateRecord} {e : Entry} (h : (r.append e).state = .opened) :
    r.state = .opened := by
  by_contra hnot
  rw [append_of_not_open hnot] at h
  exact hnot h

/-- A header that is not refused opens a record of a legal run, within both capacities (R39). -/
theorem recordsOk_header {q : UpdateQueue} {h : StgHeader} (hs : RecordsOk q.records)
    (haccepted : q.refusesHeader h = false) (hnone : q.openRecord = none) :
    RecordsOk (q.records ++ [h.record]) := by
  obtain ⟨-, -, hshape, -⟩ := hs
  have hclosed := (openRecord_eq_none_iff q).1 hnone
  have hfields := of_decide_eq_false haccepted
  simp only [Config.maxRecords, Config.maxColourWords, UpdateQueue.recordCount,
    UpdateQueue.wordCount, not_or] at hfields
  obtain ⟨hzero, height, hrun, hrecords, hwords⟩ := hfields
  refine ⟨?_, ?_, ?_, ?_⟩
  · rw [List.length_append, List.length_singleton]
    omega
  · simp only [List.map_append, List.sum_append, List.map_cons, List.map_nil, List.sum_cons,
      List.sum_nil, StgHeader.record]
    omega
  · intro r hr
    obtain hr | rfl := (List.mem_append.1 hr).imp_right List.mem_singleton.1
    · exact hshape r hr
    · simp only [RecordOk, StgHeader.record, List.length_nil]
      exact ⟨by omega, by omega, by omega, fun _ => by omega, fun hne => absurd rfl hne⟩
  · have hempty : (q.records.filter fun r => decide (r.state = .opened)) = [] :=
      List.filter_eq_nil_iff.2 fun r hr => by simpa using hclosed r hr
    rw [List.filter_append, hempty, List.nil_append]
    exact List.length_filter_le _ _

theorem recordsOk_step {q : UpdateQueue} {l : List UpdateRecord} (h : RecordsOk q.records)
    (hstep : RecordsStep q l) : RecordsOk l := by
  cases hstep with
  | same => exact h
  | fewer l hl => exact recordsOk_sublist h hl
  | sealed b n =>
    refine recordsOk_map h (fun r => ?_) (fun r => recordOk_sealedRecord b n) fun r => ?_
    · unfold sealedRecord
      split <;> rfl
    · unfold sealedRecord
      split
      · exact fun hopen => by simp at hopen
      · exact id
  | stage l hl =>
    cases hl with
    | header x haccepted hnone => exact recordsOk_header h haccepted hnone
    | dropOpen => exact recordsOk_sublist h List.filter_sublist
    | colour e =>
      exact recordsOk_map h (fun r => append_count r e) (fun r => recordOk_append e)
        fun r => opened_of_append
    | discard b => exact recordsOk_sublist h List.filter_sublist

/-! ## The banks' entries (R13) -/

theorem palette_move {i : Instr} {s t : State} (hstaging : StagingOk s)
    (hindex : s.port.index < s.port.target.positions)
    (hs : ∀ b, Palette.wf (s.bank b).entries = true) (h : Move i s t) (b : BankId) :
    Palette.wf (t.bank b).entries = true := by
  obtain ⟨hsame, -⟩ | ⟨rfl, -⟩ | ⟨v, -, htarget, -, rfl⟩ | ⟨-, rfl⟩ := sameBank_of_move h b
  · rw [hsame]
    exact hs b
  · rw [commit_bank, if_pos rfl]
    refine applyRecords_wf (hs b) fun r hr => ?_
    obtain ⟨hfull, hrun⟩ := runFull_of_mem_pendingSet hstaging.2.2.1 r hr
    rwa [hfull]
  · rw [htarget] at hindex
    rw [State.bank, State.notice_banks]
    exact (congrArg (fun x : Bank => Palette.wf x.entries) (State.bank_setBank_same s b _)).trans
      (Palette.write_wf (hs b) hindex)
  · rw [bank_fullReset]
    rfl

/-! ## The port (R60 to R67) -/

/-- What a move leaves of the port and of what the targets hold: the port is told of the one table
that changes (R65). -/
inductive PortStep (s t : State) : Prop
  | same : t.port = s.port → (∀ x n, t.item x n = s.item x n) → PortStep s t
  | told (k : PortTarget) : t.port = portAfterChange s.port k →
      (∀ x n, x ≠ k → t.item x n = s.item x n) → PortStep s t
  | move (p : AccessPort) : PortMove s p → t = s.withPort p → PortStep s t
  | reset : t.port = AccessPort.reset → PortStep s t

/-- What the targets hold is the banks' entries and the maps' cells. -/
theorem item_of_same {s t : State} (x : PortTarget) (n : Nat)
    (hbank : ∀ b, x = .bank b → (t.bank b).entries = (s.bank b).entries)
    (hmap : ∀ m, x = .map m → (t.map m).cells = (s.map m).cells) : t.item x n = s.item x n := by
  cases x with
  | bank b => simp only [State.item, hbank b rfl]
  | map m => simp only [State.item, hmap m rfl]

theorem portStep_of_maps {s t : State} {m : MapId} {x : ReductionMap}
    (hport : t.port = portAfterChange s.port (.map m)) (hmaps : t.maps = s.maps.set m x)
    (hbank : ∀ b, (t.bank b).entries = (s.bank b).entries) : PortStep s t := by
  refine .told (.map m) hport fun k n hk => item_of_same k n (fun b _ => hbank b) fun d hd => ?_
  have hne : d ≠ m := by
    rintro rfl
    exact hk hd
  rw [State.map, hmaps, PerMap.get_set_other _ _ _ _ hne]
  rfl

theorem mapAfterChange_cells (x : ReductionMap) (b : BankId) :
    (mapAfterChange x b).cells = x.cells := by
  rw [(mapAfterChange_frame x b).1]

theorem portStep_of_bank {s t : State} {b : BankId}
    (hport : t.port = portAfterChange s.port (.bank b))
    (hbank : ∀ d, d ≠ b → t.bank d = s.bank d)
    (hmap : ∀ m, t.map m = mapAfterChange (s.map m) b) : PortStep s t := by
  refine .told (.bank b) hport fun k n hk => item_of_same k n (fun d hd => ?_) fun m _ => ?_
  · have hne : d ≠ b := by
      rintro rfl
      exact hk hd
    rw [hbank d hne]
  · rw [hmap, mapAfterChange_cells]

theorem Move.portStep {i : Instr} {s t : State} (h : Move i s t) : PortStep s t := by
  cases h with
  | book u hu _ _ =>
    rw [hu]
    exact .same rfl fun _ _ => rfl
  | showNext _ =>
    rw [showNext_spec]
    exact .same rfl fun _ _ => rfl
  | leave c y _ _ =>
    refine .same (by rw [dropHolds_spec]; rfl)
      fun x n => item_of_same x n (fun b _ => ?_) fun m _ => ?_
    · rw [dropHolds_bank]
      rfl
    · rw [dropHolds_map]
      rfl
  | start c _ _ _ _ =>
    refine .same (by rw [State.takeHolds_spec]; rfl) fun x n =>
      item_of_same x n (fun b _ => ?_) fun m _ => ?_
    · rw [takeHolds_bank]
      rfl
    · rw [takeHolds_map]
      rfl
  | enter r _ _ _ =>
    rw [enterBuilding_eq]
    exact portStep_of_maps rfl rfl fun b => (sameBank_of_holders rfl b).1
  | fail r _ _ _ => exact portStep_of_maps (m := r.map) rfl rfl fun _ => rfl
  | cell x _ _ _ =>
    rw [writeCell_spec]
    exact portStep_of_maps rfl rfl fun _ => rfl
  | finish x _ _ _ =>
    rw [finished_spec]
    exact portStep_of_maps rfl rfl fun b => (sameBank_of_holders rfl b).1
  | abort m _ =>
    rw [aborted_spec]
    exact portStep_of_maps rfl rfl fun b => (sameBank_of_holders rfl b).1
  | commit b _ _ =>
    exact portStep_of_bank (commit_port s b) (fun _ hd => commit_bank_other hd) (commit_map s b)
  | write b v _ _ _ =>
    rw [directWrite_eq_notice]
    refine portStep_of_bank (s := s) (notice_port (written s b v) b) (fun d hd => ?_)
      (notice_map (written s b v) b)
    rw [State.bank, State.notice_banks]
    exact written_bank_other v hd
  | port p hp => exact .move p hp rfl
  | softReset _ _ => exact .reset rfl
  | fullReset _ => exact .reset rfl
  | display | darken | settings | claim | unclaim | insert | chan | engine | unpost | request
  | unrequest | stage | sealRecords | defer => exact .same rfl fun _ _ => rfl

theorem positions_pos (t : PortTarget) : 0 < t.positions := by
  cases t <;> simp [PortTarget.positions]

theorem after_lt (t : PortTarget) (i : Nat) : t.after i < t.positions :=
  Nat.mod_lt _ (positions_pos t)

/-- A notice leaves the port's address (R65). -/
theorem portAfterChange_frame (p : AccessPort) (k : PortTarget) :
    (portAfterChange p k).target = p.target ∧ (portAfterChange p k).index = p.index ∧
      (portAfterChange p k).stretched = p.stretched := by
  unfold portAfterChange
  split <;> exact ⟨rfl, rfl, rfl⟩

theorem portIndex_step {s t : State} (hs : s.port.index < s.port.target.positions)
    (h : PortStep s t) : t.port.index < t.port.target.positions := by
  cases h with
  | same hport _ => rwa [hport]
  | told k hport _ =>
    obtain ⟨htarget, hindex, -⟩ := portAfterChange_frame s.port k
    rwa [hport, htarget, hindex]
  | move p hp ht =>
    rw [ht]
    cases hp with
    | address k n hn => exact hn
    | advance => exact after_lt _ _
    | stretch _ => exact hs
    | answer _ => exact after_lt _ _
    | fetch _ _ => exact hs
  | reset hport =>
    rw [hport]
    decide

/-! ## TICK_DIV (R182) -/

theorem tickDiv_move {i : Instr} {s t : State} (hs : s.timebase.div ≠ 0) (h : Move i s t) :
    t.timebase.div ≠ 0 := by
  have hkept (ht : t.timebase = s.timebase) : t.timebase.div ≠ 0 := by rwa [ht]
  cases h with
  | book u _ hdiv _ => exact hdiv hs
  | showNext _ => exact hkept (by rw [showNext_spec])
  | leave c y _ _ => exact hkept (by rw [dropHolds_spec]; rfl)
  | start c _ _ _ _ => exact hkept (by rw [State.takeHolds_spec]; rfl)
  | enter r _ _ _ => exact hkept (s.enterBuilding_timebase r)
  | cell x _ _ _ => exact hkept (by rw [writeCell_spec])
  | finish x _ _ _ => exact hkept (by rw [finished_spec])
  | abort m _ => exact hkept (by rw [aborted_spec])
  | commit b _ _ => exact hkept (s.commit_timebase b)
  | write b v _ _ _ => exact hkept (by rw [directWrite_eq_notice, State.notice_timebase]; rfl)
  | fullReset _ => exact show BitVec.ofNat 16 Config.resetTickDiv ≠ 0 by decide
  | display | darken | settings | claim | unclaim | insert | chan | engine | unpost | request
  | unrequest | fail | stage | sealRecords | defer | port | softReset => exact hs

/-! ## The law of capacities and shapes -/

theorem collectionsOk_move {i : Instr} {s t : State} (hs : CollectionsOk s) (h : Move i s t) :
    CollectionsOk t := by
  obtain ⟨hstaging, hevents, hchans, hpalettes, hindex, hdiv⟩ := hs
  exact ⟨recordsOk_step hstaging h.records, queueOk_move hevents h.eventQueue,
    fun c => channelOk_step (hchans c) (h.channel c), palette_move hstaging hindex hpalettes h,
    portIndex_step hindex h.portStep, tickDiv_move hdiv h⟩

/-- Settles O53: each part of the law is kept by what a move does to that part (`recordsOk_step`,
`queueOk_move`, `channelOk_step`, `palette_move`, `portIndex_step`, `tickDiv_move`). -/
theorem everyStepKeepsTheCapacities : Obligations.EveryStepKeepsTheCapacities :=
  fun _ _ hs h =>
    step_keeps (fun _ _ hu => hu) (fun _ _ _ hu hmove => collectionsOk_move hu hmove) hs h

/-! ## The law of the prefetch -/

theorem prefetchOk_iff (s : State) : PrefetchOk s ↔
    s.port.index < s.port.target.positions ∧
      (s.port.stretched = true → s.port.items = [] ∧ s.port.filling = true) ∧
      (s.port.items = [] ∨
        (∃ x, s.port.items = [x] ∧ s.port.filling = true ∧ x = s.item s.port.target s.port.index) ∨
        ∃ x y, s.port.items = [x, y] ∧ s.port.filling = false ∧
          x = s.item s.port.target s.port.index ∧
          y = s.item s.port.target (s.port.target.after s.port.index)) := by
  unfold PrefetchOk
  match s.port.items with
  | [] => simp
  | [x] => grind
  | [x, y] => grind
  | x :: y :: z :: l => simp

theorem prefetchOk_empty {s : State} (hindex : s.port.index < s.port.target.positions)
    (hempty : s.port.items = []) (hstretched : s.port.stretched = true → s.port.filling = true) :
    PrefetchOk s :=
  (prefetchOk_iff s).2 ⟨hindex, fun h => ⟨hempty, hstretched h⟩, .inl hempty⟩

/-- The law says nothing of more than the port and what its target holds. -/
theorem prefetchOk_of_same {s t : State} (hs : PrefetchOk s) (hport : t.port = s.port)
    (hitem : ∀ n, t.item s.port.target n = s.item s.port.target n) : PrefetchOk t := by
  rw [prefetchOk_iff] at hs ⊢
  simpa only [hport, hitem] using hs

/-- The port's own moves take their items from the target as it stands. -/
theorem prefetchOk_portMove {s : State} {p : AccessPort} (hs : PrefetchOk s) (h : PortMove s p) :
    PrefetchOk (s.withPort p) := by
  obtain ⟨hindex, hstretched, hitems⟩ := (prefetchOk_iff s).1 hs
  have hitem (x : PortTarget) (n : Nat) : (s.withPort p).item x n = s.item x n := rfl
  cases h with
  | address k n hn => exact prefetchOk_empty hn rfl fun h => absurd h Bool.false_ne_true
  | stretch hempty => exact prefetchOk_empty hindex hempty fun _ => rfl
  | answer hempty =>
    exact prefetchOk_empty (after_lt _ _)
      (by rw [State.withPort_port, AccessPort.advance, hempty]; rfl)
      fun _ => rfl
  | advance =>
    refine (prefetchOk_iff _).2 ⟨after_lt _ _, fun h => ⟨?_, rfl⟩, ?_⟩
    · exact congrArg List.tail (hstretched h).1
    · obtain hempty | ⟨x, hone, -⟩ | ⟨x, y, htwo, -, -, hy⟩ := hitems
      · exact .inl (congrArg List.tail hempty)
      · exact .inl (congrArg List.tail hone)
      · exact .inr (.inl ⟨y, congrArg List.tail htwo, rfl, hy⟩)
  | fetch hfilling hdue =>
    have hnot : s.port.stretched ≠ true := fun h => hdue ⟨h, (hstretched h).1⟩
    refine (prefetchOk_iff _).2 ⟨hindex, fun h => absurd h hnot, .inr ?_⟩
    obtain hempty | ⟨x, hone, -, hx⟩ | ⟨x, y, -, hready, -⟩ := hitems
    · refine .inl ⟨s.item s.port.target s.port.index, ?_, ?_, rfl⟩
      · simp [State.withPort, AccessPort.fetchPosition, hempty]
      · simp [State.withPort, hempty]
    · refine .inr ⟨x, s.item s.port.target (s.port.target.after s.port.index), ?_, ?_, hx, rfl⟩
      · simp [State.withPort, AccessPort.fetchPosition, hone]
      · simp [State.withPort, hone]
    · simp [hready] at hfilling

theorem prefetchOk_step {s t : State} (hs : PrefetchOk s) (h : PortStep s t) : PrefetchOk t := by
  obtain ⟨hindex, hstretched, -⟩ := (prefetchOk_iff s).1 hs
  cases h with
  | same hport hitem => exact prefetchOk_of_same hs hport fun n => hitem _ n
  | told k hport hitem =>
    by_cases htarget : s.port.target = k
    · rw [portAfterChange, if_pos htarget] at hport
      exact prefetchOk_empty (by rw [hport]; exact hindex) (by rw [hport]) fun _ => by rw [hport]
    · rw [portAfterChange, if_neg htarget] at hport
      exact prefetchOk_of_same hs hport fun n => hitem _ n htarget
  | move p hp ht =>
    rw [ht]
    exact prefetchOk_portMove hs hp
  | reset hport =>
    exact prefetchOk_empty (by rw [hport]; decide) (by rw [hport]; rfl) fun h => by
      rw [hport] at h
      exact absurd h Bool.false_ne_true

/-- Settles O56: a table that changes tells the port, whose items are then discarded; a fetch takes
its item from the target as it stands (`prefetchOk_step`). -/
theorem everyStepKeepsThePrefetchCurrent : Obligations.EveryStepKeepsThePrefetchCurrent :=
  fun _ _ hs h =>
    step_keeps (fun _ _ hu => hu) (fun _ _ _ hu hmove => prefetchOk_step hu hmove.portStep) hs h

end Sys2Proof.Proofs
end

section
/-! PROOFS. The search of a cell (R100) and the law of maps, engine and request list over moves (R78
to R81, R94, R95). -/

namespace Sys2Proof.Proofs

open Sys2Proof Sys2Proof.Machine Sys2Proof.Safety

/-! ## The search of a cell (R77, R100) -/

theorem nearest_eq_none_iff (d : Nat → Nat) (l : List Nat) : nearest d l = none ↔ l = [] := by
  cases l with
  | nil => simp [nearest]
  | cons i rest =>
    simp only [nearest, reduceCtorEq, iff_false]
    split
    · simp
    · split <;> simp

/-- The search of an ascending list finds the least distance at its lowest index. -/
theorem isNearest_of_nearest {d : Nat → Nat} {l : List Nat} {i : Nat} (hl : l.Pairwise (· < ·))
    (h : nearest d l = some i) : IsNearest d l i := by
  induction l generalizing i with
  | nil => simp [nearest] at h
  | cons k rest ih =>
    obtain ⟨hfirst, hrest⟩ := List.pairwise_cons.1 hl
    unfold nearest at h
    split at h
    next hnone =>
      obtain rfl : k = i := by simpa using h
      rw [(nearest_eq_none_iff d rest).1 hnone]
      exact ⟨List.mem_singleton_self k, by simp⟩
    next j hj =>
      obtain ⟨hmem, hleast⟩ := ih hrest hj
      split at h
      next hless =>
        obtain rfl : j = i := by simpa using h
        refine ⟨List.mem_cons_of_mem _ hmem, fun x hx => ?_⟩
        obtain rfl | hx := List.mem_cons.1 hx
        · exact ⟨hless.le, fun heq => absurd heq hless.ne'⟩
        · exact hleast x hx
      next hmore =>
        obtain rfl : k = i := by simpa using h
        refine ⟨List.mem_cons_self, fun x hx => ?_⟩
        obtain rfl | hx := List.mem_cons.1 hx
        · exact ⟨le_rfl, fun _ => le_rfl⟩
        · exact ⟨(Nat.le_of_not_lt hmore).trans (hleast x hx).1, fun _ => (hfirst x hx).le⟩

theorem eligible_range {p : MapParams} {bank : List (Nat × Entry)} {j : Nat}
    (h : j ∈ p.eligible bank) : p.first.toNat ≤ j ∧ j ≤ p.last.toNat := by
  have hrange := List.mem_range'_1.1 (List.mem_filter.1 h).1
  omega

theorem eligible_pairwise (p : MapParams) (bank : List (Nat × Entry)) :
    (p.eligible bank).Pairwise (· < ·) := (List.pairwise_lt_range' 1 Nat.one_pos).filter _

theorem sqDiff_cast (a b : Nat) : (sqDiff a b : Int) = ((a : Int) - b) ^ 2 := by
  unfold sqDiff
  obtain h | h := Nat.le_total a b
  · rw [Nat.sub_eq_zero_of_le h, Nat.zero_add]
    push_cast [h]
    ring
  · rw [Nat.sub_eq_zero_of_le h, Nat.add_zero]
    push_cast [h]
    ring

theorem distance_eq (e : Entry) (c : Centre) : distance e c = squaredDistance e c := by
  have hcast : ((distance e c : Nat) : Int) =
      ((e.r.toNat : Int) - c.r) ^ 2 + ((e.g.toNat : Int) - c.g) ^ 2 +
        ((e.b.toNat : Int) - c.b) ^ 2 := by
    rw [distance, Nat.cast_add, Nat.cast_add, sqDiff_cast, sqDiff_cast, sqDiff_cast]
  rw [squaredDistance, ← hcast, Int.toNat_natCast]

theorem byte_toNat {p : MapParams} {bank : List (Nat × Entry)} {j : Nat}
    (h : j ∈ p.eligible bank) : (BitVec.ofNat 8 j).toNat = j := by
  have hlast := (eligible_range h).2
  rw [BitVec.toNat_ofNat, Nat.mod_eq_of_lt (hlast.trans_lt p.last.isLt)]

/-- The search gives the cell of R100. -/
theorem isSearchResult_of_searchCell {p : MapParams} {bank : List (Nat × Entry)} {i : Nat}
    {c : Cell}
    (h : p.searchCell bank i = some c) : IsSearchResult p bank i c := by
  have hdist : (fun j => distance (Palette.read bank j) (p.centre i)) =
      fun j => squaredDistance (Palette.read bank j) (p.centre i) := funext fun j => distance_eq _ _
  unfold MapParams.searchCell at h
  unfold IsSearchResult
  rw [hdist] at h
  generalize (fun j => squaredDistance (Palette.read bank j) (p.centre i)) = d at h ⊢
  dsimp only at h ⊢
  split at h
  next => simp at h
  next best hbest =>
    have hnear := isNearest_of_nearest (eligible_pairwise p bank) hbest
    have hbyte := byte_toNat hnear.1
    split at h
    next hnone =>
      obtain rfl : _ = c := by simpa using h
      rw [nearest_eq_none_iff, List.filter_eq_nil_iff] at hnone
      dsimp only
      rw [hbyte]
      exact ⟨hnear, fun j hj => by simpa using hnone j hj, rfl⟩
    next second hsecond =>
      obtain rfl : _ = c := by simpa using h
      have hnear' := isNearest_of_nearest ((eligible_pairwise p bank).filter _) hsecond
      have hbyte' := byte_toNat (List.mem_filter.1 hnear'.1).1
      dsimp only
      rw [hbyte, hbyte']
      exact ⟨hnear, hnear', rfl⟩

theorem cellOk_of_isSearchResult {p : MapParams} {bank : List (Nat × Entry)} {i : Nat} {c : Cell}
    (h : IsSearchResult p bank i c) : CellOk p c := by
  unfold IsSearchResult at h
  generalize (fun j => squaredDistance (Palette.read bank j) (p.centre i)) = d at h
  dsimp only at h
  obtain ⟨⟨hmem, hleast⟩, hsecond⟩ := h
  obtain ⟨hfirst, hlast⟩ := eligible_range hmem
  cases hc : c.second with
  | none =>
    rw [hc] at hsecond
    exact ⟨hfirst, hlast, by rw [hsecond.2]; exact Nat.zero_le _, fun t ht => by simp [hc] at ht⟩
  | some t =>
    rw [hc] at hsecond
    obtain ⟨⟨hmem', -⟩, hweight⟩ := hsecond
    obtain ⟨hmem', hne⟩ := List.mem_filter.1 hmem'
    obtain ⟨hfirst', hlast'⟩ := eligible_range hmem'
    refine ⟨hfirst, hlast, ?_, fun u hu => ?_⟩
    · rw [hweight]
      split
      · exact le_rfl
      · have hle := (hleast _ hmem').1
        exact Nat.div_le_of_le_mul (by omega)
    · obtain rfl : t = u := by simpa [hc] using hu
      exact ⟨fun heq => by simp [heq] at hne, hfirst', hlast'⟩

theorem cellOk_of_searchCell {p : MapParams} {bank : List (Nat × Entry)} {i : Nat} {c : Cell}
    (h : p.searchCell bank i = some c) : CellOk p c :=
  cellOk_of_isSearchResult (isSearchResult_of_searchCell h)

/-! ## One map's law -/

/-- The law of one map's record, with the engine's progress. -/
def MapRecordOk (progress : Nat) (x : ReductionMap) : Prop :=
  x.params.valid = true ∧ (∀ c ∈ x.cells, CellOk x.params c) ∧
    match x.state with
    | .empty => x.cells = []
    | .building => x.cells.length = progress ∧ progress < x.params.cellCount
    | .ready => x.cells.length = x.params.cellCount
    | .stale => x.cells.length = x.params.cellCount

theorem mapOk_iff (s : State) (m : MapId) :
    MapOk s m ↔ MapRecordOk s.engine.progress (s.map m) := by
  unfold MapOk MapRecordOk
  cases (s.map m).state <;> rfl

/-- Only a BUILDING map is measured by the engine's progress. -/
theorem mapRecordOk_progress {n : Nat} {x : ReductionMap} (h : MapRecordOk n x)
    (hx : x.state ≠ .building) (k : Nat) : MapRecordOk k x := by
  obtain ⟨hvalid, hcells, hstate⟩ := h
  refine ⟨hvalid, hcells, ?_⟩
  cases hcase : x.state with
  | building => exact absurd hcase hx
  | empty | ready | stale => simpa only [hcase] using hstate

theorem mapRecordOk_empty {x : ReductionMap} {p : MapParams} (hp : p.valid = true) (k : Nat) :
    MapRecordOk k { x with state := .empty, params := p, cells := [] } :=
  ⟨hp, fun _ hc => absurd hc List.not_mem_nil, rfl⟩

/-- The holder count is no part of the law, nor is the generation. -/
theorem mapRecordOk_of_same {n : Nat} {x y : ReductionMap} (h : MapRecordOk n x)
    (hy : y.state = x.state ∧ y.params = x.params ∧ y.cells = x.cells) : MapRecordOk n y := by
  obtain ⟨hstate, hparams, hcells⟩ := hy
  unfold MapRecordOk
  rw [hstate, hparams, hcells]
  exact h

theorem mapRecordOk_afterChange {n : Nat} {x : ReductionMap} (h : MapRecordOk n x) (b : BankId) :
    MapRecordOk n (mapAfterChange x b) := by
  unfold mapAfterChange
  split
  next hready =>
    obtain ⟨hvalid, hcells, hstate⟩ := h
    exact ⟨hvalid, hcells, by simpa only [hready.1] using hstate⟩
  next => exact h

theorem cellCount_pos {p : MapParams} (h : p.valid = true) : 0 < p.cellCount := by
  obtain ⟨⟨hr, -⟩, ⟨hg, -⟩, hb, -⟩ := dims_of_valid h
  exact Nat.mul_pos (Nat.mul_pos (by omega) (by omega)) (by omega)

/-- A searched cell joins the valid cells. -/
theorem cells_append {x : ReductionMap} {c : Cell} {bank : List (Nat × Entry)} {i : Nat}
    (h : ∀ k ∈ x.cells, CellOk x.params k) (hc : x.params.searchCell bank i = some c) :
    ∀ k ∈ x.cells ++ [c], CellOk x.params k := by
  intro k hk
  obtain hk | hk := List.mem_append.1 hk
  · exact h k hk
  · rw [List.mem_singleton.1 hk]
    exact cellOk_of_searchCell hc

/-! ## The moves on maps, engine and requests -/

section
variable {s t : State}

/-- The law says nothing of more than the maps but for holds, the engine in BUILDING, and requests
that are some of those before. -/
theorem mapsOk_of_same (hs : MapsOk s)
    (hmap : ∀ m, (t.map m).state = (s.map m).state ∧ (t.map m).params = (s.map m).params ∧
      (t.map m).cells = (s.map m).cells)
    (hbuilding : t.engine.state = .building ↔ s.engine.state = .building)
    (hkept : s.engine.state = .building →
      t.engine.current = s.engine.current ∧ t.engine.progress = s.engine.progress)
    (hrequests : t.engine.requests.Sublist s.engine.requests) : MapsOk t := by
  obtain ⟨hagree, hmaps, hnodup, hreqs⟩ := hs
  refine ⟨fun m => ?_, fun m => ?_, hnodup.sublist (hrequests.map _), fun r hr => ?_⟩
  · rw [(hmap m).1, hagree m, hbuilding]
    exact and_congr_right fun h => by rw [(hkept h).1]
  · have hrecord := mapRecordOk_of_same ((mapOk_iff s m).1 (hmaps m)) (hmap m)
    rw [mapOk_iff]
    by_cases hm : (t.map m).state = .building
    · rw [(hmap m).1, hagree m] at hm
      rwa [(hkept hm.1).2]
    · exact mapRecordOk_progress hrecord hm _
  · rw [(hmap r.map).1]
    exact hreqs r (hrequests.subset hr)

/-- One map is exchanged, while no other is BUILDING. -/
theorem mapsOk_set {m : MapId} {x : ReductionMap} (hs : MapsOk s) (hmaps : t.maps = s.maps.set m x)
    (hothers : ∀ k, k ≠ m → (s.map k).state ≠ .building)
    (hx : MapRecordOk t.engine.progress x)
    (hbuilding : x.state = .building ↔ t.engine.state = .building)
    (hcurrent : t.engine.state = .building → t.engine.current = m)
    (hrequests : t.engine.requests.Sublist s.engine.requests)
    (hfree : x.state = .building → ∀ r ∈ t.engine.requests, r.map ≠ m) : MapsOk t := by
  obtain ⟨-, hrecords, hnodup, hreqs⟩ := hs
  have hmap (k : MapId) : t.map k = if k = m then x else s.map k := by
    rw [State.map, hmaps, PerMap.get_set]
    rfl
  refine ⟨fun k => ?_, fun k => ?_, hnodup.sublist (hrequests.map _), fun r hr => ⟨?_, ?_⟩⟩
  · rw [hmap]
    split
    next heq => rw [hbuilding, heq, and_iff_left_of_imp hcurrent]
    next hne =>
      exact ⟨fun h => absurd h (hothers k hne), fun h => absurd (h.2.symm.trans (hcurrent h.1)) hne⟩
  · rw [mapOk_iff, hmap]
    split
    next => exact hx
    next hne => exact mapRecordOk_progress ((mapOk_iff s k).1 (hrecords k)) (hothers k hne) _
  · exact (hreqs r (hrequests.subset hr)).1
  · rw [hmap]
    split
    next heq => exact fun h => hfree h r hr heq
    next => exact (hreqs r (hrequests.subset hr)).2

/-- A change of a bank makes its READY maps STALE and may place their requests (R82, R83). -/
theorem mapsOk_change (hs : MapsOk s) (b : BankId)
    (hmap : ∀ m, t.map m = mapAfterChange (s.map m) b)
    (hengine : t.engine = { s.engine with requests := t.engine.requests })
    (hrequests : RequestsAfterChange s b t.engine.requests) : MapsOk t := by
  obtain ⟨hagree, hmaps, hnodup, hreqs⟩ := hs
  obtain ⟨new, heq, hnew, hmem⟩ := hrequests
  have hbuilding (m : MapId) : (t.map m).state = .building ↔ (s.map m).state = .building := by
    rw [hmap]
    exact (mapAfterChange_frame _ b).2
  refine ⟨fun m => ?_, fun m => ?_, ?_, fun r hr => ?_⟩
  · rw [hbuilding, hengine]
    exact hagree m
  · rw [mapOk_iff, hmap, hengine]
    exact mapRecordOk_afterChange ((mapOk_iff s m).1 (hmaps m)) b
  · rw [heq, List.map_append]
    refine hnodup.append hnew fun m hold hplaced => ?_
    obtain ⟨r, hr, rfl⟩ := List.mem_map.1 hplaced
    obtain ⟨-, -, -, hpending, -⟩ := (hmem r).1 hr
    obtain ⟨q, hq, hsame⟩ := List.mem_map.1 hold
    have hset : s.buildPending r.map = true := (buildPending_iff s _).2 ⟨q, hq, hsame⟩
    simp [hpending] at hset
  · rw [ne_eq, hbuilding]
    rw [heq, List.mem_append] at hr
    obtain hr | hr := hr
    · exact hreqs r hr
    · obtain ⟨hready, -, -, -, hparams⟩ := (hmem r).1 hr
      rw [hparams]
      exact ⟨(hmaps r.map).1, by simp [hready]⟩

/-- A request that is not refused joins the list (R94). -/
theorem mapsOk_request {r : BuildRequest} (hs : MapsOk s) (hstate : (s.map r.map).state ≠ .building)
    (hpending : s.buildPending r.map = false) (hvalid : r.params.valid = true) :
    MapsOk (s.addRequest r) := by
  obtain ⟨hagree, hmaps, hnodup, hreqs⟩ := hs
  refine ⟨hagree, hmaps, ?_, fun q hq => ?_⟩
  · have hrequests : (s.addRequest r).engine.requests = s.engine.requests ++ [r] := rfl
    rw [hrequests, List.map_append]
    refine hnodup.append (List.nodup_singleton _) fun m hold hnew => ?_
    obtain rfl : m = r.map := by simpa using hnew
    obtain ⟨q, hq, hsame⟩ := List.mem_map.1 hold
    have hset : s.buildPending r.map = true := (buildPending_iff s _).2 ⟨q, hq, hsame⟩
    simp [hpending] at hset
  · obtain hq | hq := List.mem_append.1 hq
    · exact hreqs q hq
    · rw [List.mem_singleton.1 hq]
      exact ⟨hvalid, hstate⟩

/-- While the engine builds, only its current map is BUILDING. -/
theorem others_not_building (hs : EngineAgrees s) {m : MapId} (hm : (s.map m).state = .building)
    (k : MapId) (hk : k ≠ m) : (s.map k).state ≠ .building := fun h =>
  hk (((hs k).1 h).2.symm.trans ((hs m).1 hm).2)

theorem mapsOk_enter {r : BuildRequest} (hs : MapsOk s) (hidle : s.engine.state = .idle)
    (hmem : r ∈ s.engine.requests) : MapsOk (s.enterBuilding r) := by
  have hvalid := (hs.2.2.2 r hmem).1
  rw [enterBuilding_eq]
  refine mapsOk_set hs rfl (fun k _ => not_building_of_idle hs.1 (by simp [hidle]) k)
    ⟨hvalid, fun _ hc => absurd hc List.not_mem_nil, rfl, cellCount_pos hvalid⟩
    (iff_of_true rfl rfl) (fun _ => rfl) List.filter_sublist fun _ q hq => ?_
  exact of_decide_eq_true (List.mem_filter.1 hq).2

theorem mapsOk_fail {r : BuildRequest} (hs : MapsOk s) (hidle : s.engine.state = .idle)
    (hmem : r ∈ s.engine.requests) : MapsOk (failedStart s r) :=
  mapsOk_set (m := r.map) hs rfl (fun k _ => not_building_of_idle hs.1 (by simp [hidle]) k)
    (mapRecordOk_empty (hs.2.2.2 r hmem).1 _) (by simp [failedStart, State.wakeMap])
    (fun h => by simp [failedStart, State.wakeMap] at h) List.filter_sublist fun h => by simp at h

/-- What the law says of the map that the engine builds. -/
theorem current_map (hs : MapsOk s) (hbuilding : s.engine.state = .building) :
    (s.map s.engine.current).state = .building ∧
      (s.map s.engine.current).params.valid = true ∧
      (∀ c ∈ (s.map s.engine.current).cells, CellOk (s.map s.engine.current).params c) ∧
      (s.map s.engine.current).cells.length = s.engine.progress ∧
      s.engine.progress < (s.map s.engine.current).params.cellCount := by
  have hm := (hs.1 s.engine.current).2 ⟨hbuilding, rfl⟩
  obtain ⟨hvalid, hcells, hstate⟩ := (mapOk_iff s _).1 (hs.2.1 s.engine.current)
  rw [hm] at hstate
  exact ⟨hm, hvalid, hcells, hstate⟩

theorem mapsOk_cell {c : Cell} (hs : MapsOk s) (hbuilding : s.engine.state = .building)
    (hc : (s.map s.engine.current).params.searchCell
      (s.bank (s.map s.engine.current).params.source).entries s.engine.progress = some c)
    (hnext : s.engine.progress + 1 < (s.map s.engine.current).params.cellCount) :
    MapsOk (s.writeCell s.engine.current c) := by
  obtain ⟨hm, hvalid, hcells, hlength, -⟩ := current_map hs hbuilding
  rw [writeCell_spec]
  refine mapsOk_set hs rfl (others_not_building hs.1 hm) ⟨hvalid, cells_append hcells hc, ?_⟩
    (iff_of_true hm hbuilding) (fun _ => rfl) (List.Sublist.refl _) fun _ r hr heq => ?_
  · dsimp only
    rw [hm]
    exact ⟨by rw [List.length_append, hlength, List.length_singleton], hnext⟩
  · exact (hs.2.2.2 r hr).2 (by rw [heq]; exact hm)

theorem mapsOk_finish {c : Cell} (hs : MapsOk s) (hbuilding : s.engine.state = .building)
    (hc : (s.map s.engine.current).params.searchCell
      (s.bank (s.map s.engine.current).params.source).entries s.engine.progress = some c)
    (hlast : (s.map s.engine.current).params.cellCount ≤ s.engine.progress + 1) :
    MapsOk (finished s s.engine.current c) := by
  obtain ⟨hm, hvalid, hcells, hlength, hprogress⟩ := current_map hs hbuilding
  rw [finished_spec]
  refine mapsOk_set hs rfl (others_not_building hs.1 hm) ⟨hvalid, cells_append hcells hc, ?_⟩
    (by simp [finishedMap]) (fun h => by simp at h) (List.Sublist.refl _)
    fun h => by simp [finishedMap] at h
  simp only [finishedMap, List.length_append, hlength, List.length_singleton]
  omega

theorem mapsOk_abort {m : MapId} (hs : MapsOk s) (hm : (s.map m).state = .building) :
    MapsOk (aborted s m) := by
  rw [aborted_spec]
  exact mapsOk_set hs rfl (others_not_building hs.1 hm) (mapRecordOk_empty (hs.2.1 m).1 _)
    (by simp) (fun h => by simp at h) (List.Sublist.refl _) fun h => by simp at h

/-- With every map EMPTY and no request the law holds of an IDLE engine. -/
theorem mapsOk_idle (hmap : ∀ m, (t.map m).state = .empty ∧ (t.map m).params = MapParams.reset ∧
    (t.map m).cells = []) (hidle : t.engine = BuildEngine.reset) : MapsOk t := by
  refine ⟨fun m => ?_, fun m => ?_, ?_, fun r hr => ?_⟩
  · simp [(hmap m).1, hidle, BuildEngine.reset]
  · obtain ⟨hstate, hparams, hcells⟩ := hmap m
    rw [mapOk_iff]
    unfold MapRecordOk
    rw [hstate, hparams, hcells]
    exact ⟨rfl, fun _ hc => absurd hc List.not_mem_nil, rfl⟩
  · rw [hidle]
    exact List.nodup_nil
  · rw [hidle] at hr
    exact absurd hr List.not_mem_nil

theorem mapsOk_move {i : Instr} (hs : MapsOk s) (h : Move i s t) : MapsOk t := by
  have hframe (hmaps : t.maps = s.maps) (hengine : t.engine = s.engine) : MapsOk t := by
    refine mapsOk_of_same hs (fun m => ?_) (by rw [hengine]) (fun _ => by simp [hengine])
      (by rw [hengine])
    rw [State.map, hmaps]
    exact ⟨rfl, rfl, rfl⟩
  cases h with
  | book u hu _ _ => exact hframe (by rw [hu]) (by rw [hu])
  | showNext _ => exact hframe (by rw [showNext_spec]) (by rw [showNext_spec])
  | leave c y _ _ =>
    have hengine : (dropHolds (s.setChan c y) (s.chan c).ctx).engine = s.engine := by
      rw [dropHolds_spec]
      rfl
    refine mapsOk_of_same hs (fun m => ?_) (by rw [hengine]) (fun _ => by simp [hengine])
      (by rw [hengine])
    rw [dropHolds_map]
    exact ⟨rfl, rfl, rfl⟩
  | start c _ _ _ _ =>
    rw [State.takeHolds_spec]
    refine mapsOk_of_same hs (fun m => ?_) Iff.rfl (fun _ => ⟨rfl, rfl⟩) (List.Sublist.refl _)
    rw [← State.takeHolds_spec, takeHolds_map]
    exact ⟨rfl, rfl, rfl⟩
  | engine e hstate hcurrent hprogress hrequests =>
    exact mapsOk_of_same hs (fun _ => ⟨rfl, rfl, rfl⟩) (by rw [hstate])
      (fun _ => ⟨hcurrent, hprogress⟩) (by rw [hrequests])
  | unpost r hpost =>
    exact mapsOk_of_same hs (fun _ => ⟨rfl, rfl, rfl⟩) (by simp [hpost])
      (fun h => by simp [hpost] at h) (List.Sublist.refl _)
  | request r hstate hpending hvalid => exact mapsOk_request hs hstate hpending hvalid
  | unrequest m =>
    exact mapsOk_of_same hs (fun _ => ⟨rfl, rfl, rfl⟩) Iff.rfl (fun _ => ⟨rfl, rfl⟩)
      List.filter_sublist
  | enter r hidle hmem _ => exact mapsOk_enter hs hidle hmem
  | fail r hidle hmem _ => exact mapsOk_fail hs hidle hmem
  | cell c hbuilding hc hnext => exact mapsOk_cell hs hbuilding hc hnext
  | finish c hbuilding hc hlast => exact mapsOk_finish hs hbuilding hc hlast
  | abort m hm => exact mapsOk_abort hs hm
  | commit b _ _ =>
    obtain ⟨hengine, hrequests⟩ := commit_engine s b
    exact mapsOk_change hs b (commit_map s b) hengine hrequests
  | write b v _ _ _ =>
    rw [directWrite_eq_notice]
    obtain ⟨hengine, hrequests⟩ := notice_engine (written s b v) b
    exact mapsOk_change (s := s) hs b (notice_map (written s b v) b) hengine hrequests
  | softReset _ _ => exact mapsOk_idle (fun m => by cases m <;> exact ⟨rfl, rfl, rfl⟩) rfl
  | fullReset _ =>
    refine mapsOk_idle (fun m => ?_) rfl
    rw [map_fullReset]
    exact ⟨rfl, rfl, rfl⟩
  | display | darken | settings | claim | unclaim | insert | chan | stage | sealRecords | defer
  | port => exact hframe rfl rfl

end

/-- Settles O57: a map enters BUILDING empty with its engine (`mapsOk_enter`), gets one searched
cell at a time (`mapsOk_cell`) and leaves full (`mapsOk_finish`) or empty (`mapsOk_abort`,
`mapsOk_fail`). -/
theorem everyStepKeepsTheMapsComplete : Obligations.EveryStepKeepsTheMapsComplete :=
  fun _ _ hs h => step_keeps (fun _ _ hu => hu) (fun _ _ _ hu hmove => mapsOk_move hu hmove) hs h

end Sys2Proof.Proofs
end

section
/-! PROOFS. The pixel path: lanes and packing (R5, R151), the edge step's pixels in order (R145),
and the law of the path over moves (R118, R138, R140, R146). -/

namespace Sys2Proof.Proofs

open Sys2Proof Sys2Proof.Machine Sys2Proof.Safety

/-! ## Lanes (R5, Table 1-2) -/

theorem perWord_pos (f : Format) : 0 < f.perWord := by cases f <;> simp [Format.perWord]

theorem perWord_mul_laneBits (f : Format) : f.perWord * f.laneBits = 32 := by cases f <;> rfl

theorem succ_mod_of_last {k p : Nat} (h : k % p + 1 = p) : (k + 1) % p = 0 := by
  rw [← Nat.mod_add_mod, h, Nat.mod_self]

theorem succ_mod_of_not_last {k p : Nat} (hp : 0 < p) (h : k % p + 1 ≠ p) :
    (k + 1) % p = k % p + 1 := by
  rw [← Nat.mod_add_mod, Nat.mod_eq_of_lt]
  exact Nat.lt_of_le_of_ne (Nat.mod_lt k hp) h

theorem inLane_lt {f : Format} {v : Word} (n : Nat) (hv : v.toNat < 2 ^ f.laneBits) :
    (f.inLane v n).toNat < 2 ^ ((n + 1) * f.laneBits) := by
  rw [Format.inLane, BitVec.toNat_shiftLeft, Nat.shiftLeft_eq]
  calc v.toNat * 2 ^ (n * f.laneBits) % 2 ^ 32 ≤ v.toNat * 2 ^ (n * f.laneBits) := Nat.mod_le _ _
    _ < 2 ^ f.laneBits * 2 ^ (n * f.laneBits) := Nat.mul_lt_mul_of_pos_right hv (by positivity)
    _ = 2 ^ ((n + 1) * f.laneBits) := by rw [← Nat.pow_add]; congr 1; ring

/-- A word in progress is there exactly when a lane of it is used and another is not, and its unused
lanes are 0. -/
def LanesOk (f : Format) (d : Nat) (word : Option Word) : Prop :=
  (word = none ↔ d % f.perWord = 0) ∧
    (word.getD 0).toNat < 2 ^ (d % f.perWord * f.laneBits)

/-- The word in progress with pixel `d` in its lane (R151). -/
def placed (f : Format) (d : Nat) (word : Option Word) (v : Word) : Word :=
  word.getD 0 ||| f.inLane v (f.laneOf d)

theorem place_of_full {q : Packing} {f : Format} {n d : Nat} (v : Word)
    (h : d % f.perWord + 1 = f.perWord ∨ d + 1 = n) :
    q.place f n d v = { word := none, out := q.out ++ [placed f d q.word v] } := if_pos h

theorem place_of_not_full {q : Packing} {f : Format} {n d : Nat} (v : Word)
    (h : ¬(d % f.perWord + 1 = f.perWord ∨ d + 1 = n)) :
    q.place f n d v = { word := some (placed f d q.word v), out := q.out } := if_neg h

/-- A pixel put into its lane leaves the lanes above it 0. -/
theorem placed_lt {f : Format} {d : Nat} {word : Option Word} {v : Word}
    (hword : (word.getD 0).toNat < 2 ^ (d % f.perWord * f.laneBits))
    (hv : v.toNat < 2 ^ f.laneBits) :
    (placed f d word v).toNat < 2 ^ ((d % f.perWord + 1) * f.laneBits) := by
  rw [placed, BitVec.toNat_or]
  refine Nat.or_lt_two_pow (hword.trans_le (Nat.pow_le_pow_right (by norm_num) ?_)) (inLane_lt _ hv)
  exact Nat.mul_le_mul_right _ (Nat.le_succ _)

theorem lanesOk_place {f : Format} {n d : Nat} {q : Packing} {v : Word} (h : LanesOk f d q.word)
    (hv : v.toNat < 2 ^ f.laneBits) (hlast : d + 1 ≠ n) :
    LanesOk f (d + 1) (q.place f n d v).word := by
  by_cases hfull : d % f.perWord + 1 = f.perWord
  · rw [place_of_full v (.inl hfull), LanesOk, succ_mod_of_last hfull]
    simp
  · rw [place_of_not_full v (by simp [hfull, hlast]), LanesOk,
      succ_mod_of_not_last (perWord_pos f) hfull]
    exact ⟨by simp, placed_lt h.2 hv⟩

/-! ## Converted pixels lie within their lane (R149, R150) -/

theorem packR565_toNat (e : Entry) : (packR565 e).toNat =
    2 ^ 11 * (e.r.toNat / 8) + 2 ^ 5 * (e.g.toNat / 4) + e.b.toNat / 8 := by
  have hb : (putAt (trunc5 e.b) 0).toNat = e.b.toNat / 8 := by
    rw [putAt_toNat _ 0 (by omega), trunc5_toNat, Nat.pow_zero, Nat.one_mul]
  have hg : (putAt (trunc6 e.g) 5 ||| putAt (trunc5 e.b) 0).toNat =
      2 ^ 5 * (e.g.toNat / 4) + e.b.toNat / 8 := by
    rw [putAt_or_toNat _ 5 _ (by omega) (by omega), hb, trunc6_toNat]
  rw [packR565, BitVec.or_assoc, putAt_or_toNat _ 11 _ (by omega) (by omega), hg, trunc5_toNat]
  omega

theorem trunc1_bit (c : Byte) : (BitVec.ofBool (trunc1 c)).toNat = c.toNat / 128 := by
  rw [ofBool_toNat, trunc1]
  by_cases h : 128 ≤ c.toNat
  · rw [decide_eq_true h, Bool.toNat_true]
    omega
  · rw [decide_eq_false h, Bool.toNat_false]
    omega

theorem packA1555_toNat (e : Entry) : (packA1555 e).toNat =
    2 ^ 15 * (e.a.toNat / 128) + 2 ^ 10 * (e.r.toNat / 8) + 2 ^ 5 * (e.g.toNat / 8) +
      e.b.toNat / 8 := by
  have hb : (putAt (trunc5 e.b) 0).toNat = e.b.toNat / 8 := by
    rw [putAt_toNat _ 0 (by omega), trunc5_toNat, Nat.pow_zero, Nat.one_mul]
  have hg : (putAt (trunc5 e.g) 5 ||| putAt (trunc5 e.b) 0).toNat =
      2 ^ 5 * (e.g.toNat / 8) + e.b.toNat / 8 := by
    rw [putAt_or_toNat _ 5 _ (by omega) (by omega), hb, trunc5_toNat]
  have hr : (putAt (trunc5 e.r) 10 ||| (putAt (trunc5 e.g) 5 ||| putAt (trunc5 e.b) 0)).toNat =
      2 ^ 10 * (e.r.toNat / 8) + (2 ^ 5 * (e.g.toNat / 8) + e.b.toNat / 8) := by
    rw [putAt_or_toNat _ 10 _ (by omega) (by omega), hg, trunc5_toNat]
  rw [packA1555, putBit, BitVec.or_assoc, BitVec.or_assoc,
    putAt_or_toNat _ 15 _ (by omega) (by omega), hr, trunc1_bit]
  omega

theorem packA4444_toNat (e : Entry) : (packA4444 e).toNat =
    2 ^ 12 * (e.a.toNat / 16) + 2 ^ 8 * (e.r.toNat / 16) + 2 ^ 4 * (e.g.toNat / 16) +
      e.b.toNat / 16 := by
  have hb : (putAt (trunc4 e.b) 0).toNat = e.b.toNat / 16 := by
    rw [putAt_toNat _ 0 (by omega), trunc4_toNat, Nat.pow_zero, Nat.one_mul]
  have hg : (putAt (trunc4 e.g) 4 ||| putAt (trunc4 e.b) 0).toNat =
      2 ^ 4 * (e.g.toNat / 16) + e.b.toNat / 16 := by
    rw [putAt_or_toNat _ 4 _ (by omega) (by omega), hb, trunc4_toNat]
  have hr : (putAt (trunc4 e.r) 8 ||| (putAt (trunc4 e.g) 4 ||| putAt (trunc4 e.b) 0)).toNat =
      2 ^ 8 * (e.r.toNat / 16) + (2 ^ 4 * (e.g.toNat / 16) + e.b.toNat / 16) := by
    rw [putAt_or_toNat _ 8 _ (by omega) (by omega), hg, trunc4_toNat]
  rw [packA4444, BitVec.or_assoc, BitVec.or_assoc, putAt_or_toNat _ 12 _ (by omega) (by omega), hr,
    trunc4_toNat]
  omega

theorem convert_lt (x : Context) (m : ReductionMap) (w : Nat) (p : Released) :
    (x.convert m w p).toNat < 2 ^ x.dst.laneBits := by
  unfold Context.convert
  cases x.dst with
  | a8888 => exact BitVec.isLt _
  | r565 =>
    dsimp only [Format.laneBits]
    rw [packR565_toNat]
    omega
  | a1555 =>
    dsimp only [Format.laneBits]
    rw [packA1555_toNat]
    omega
  | a4444 =>
    dsimp only [Format.laneBits]
    rw [packA4444_toNat]
    omega
  | i8 =>
    dsimp only [Format.laneBits]
    rw [BitVec.toNat_setWidth]
    omega

/-! ## The edge step takes the pixels in order (R145) -/

/-- What the edge step holds between pixels: nothing, with every pixel stepped released, or the
pixel stepped last, under edge on, when it did not end its row. -/
def HeldAt (x : Context) (job : Job) (held : Option HeldPixel) (next done : Nat) : Prop :=
  match held with
  | none => done = next
  | some h =>
    done + 1 = next ∧ h.number = done ∧ x.edgeEn = true ∧
      endsRow job.width job.count h.number = false

theorem releaseHeld_numbers {x : Context} {job : Job} {held : Option HeldPixel} {k d : Nat}
    (e : Entry) (h : HeldAt x job held k d) :
    (releaseHeld x e held).map (fun p => p.number) = List.range' d (releaseHeld x e held).length ∧
      d + (releaseHeld x e held).length = k := by
  cases held with
  | none => exact ⟨rfl, h⟩
  | some p =>
    obtain ⟨hnext, hnumber, -, -⟩ := h
    exact ⟨by simp [releaseHeld, hnumber], hnext⟩

/-- The pixels released are the next ones in order, and the step of a pixel at its row's end or the
job's releases all. -/
theorem edge_numbers {x : Context} {job : Job} {held : Option HeldPixel} {k d : Nat} (e : Entry)
    (h : HeldAt x job held k d) {ps : List Released} {held' : Option HeldPixel}
    (hedge : x.edge job.width job.count k e held = (ps, held')) :
    ps.map (fun p => p.number) = List.range' d ps.length ∧
      HeldAt x job held' (k + 1) (d + ps.length) ∧
      (endsRow job.width job.count k = true → held' = none) := by
  obtain ⟨hnumbers, hlength⟩ := releaseHeld_numbers e h
  cases hon : x.edgeEn with
  | false =>
    rw [edge_of_off _ _ _ _ _ hon] at hedge
    obtain ⟨rfl, rfl⟩ := Prod.mk.inj hedge
    have hnone : held = none := by
      cases held with
      | none => rfl
      | some p =>
        obtain ⟨-, -, hon', -⟩ := h
        exact absurd (hon'.symm.trans hon) (by decide)
    rw [hnone] at h
    obtain rfl : d = k := h
    exact ⟨rfl, rfl, fun _ => rfl⟩
  | true =>
    cases hend : endsRow job.width job.count k with
    | true =>
      rw [edge_of_endsRow e held hon hend] at hedge
      obtain ⟨rfl, rfl⟩ := Prod.mk.inj hedge
      refine ⟨?_, ?_, fun _ => rfl⟩
      · rw [List.map_append, hnumbers, List.length_append, List.length_singleton,
          List.range'_concat,
          Nat.one_mul, hlength]
        rfl
      · rw [List.length_append, ← Nat.add_assoc, hlength]
        rfl
    | false =>
      rw [edge_of_not_endsRow e held hon hend] at hedge
      obtain ⟨rfl, rfl⟩ := Prod.mk.inj hedge
      exact ⟨hnumbers, ⟨by rw [hlength], hlength.symm, hon, hend⟩, fun hrow => by simp at hrow⟩

/-- Pixels taken in order, none of them the job's last, keep the word in progress. -/
theorem lanesOk_pack {x : Context} {m : ReductionMap} {job : Job} {ps : List Released} {d : Nat}
    {q : Packing} (h : LanesOk x.dst d q.word)
    (hnumbers : ps.map (fun p => p.number) = List.range' d ps.length)
    (hlast : d + ps.length < job.count) :
    LanesOk x.dst (d + ps.length) (x.pack m job ps q).word := by
  induction ps generalizing d q with
  | nil => exact h
  | cons p rest ih =>
    rw [List.length_cons] at hnumbers hlast ⊢
    rw [List.map_cons, List.range'_succ, List.cons.injEq] at hnumbers
    obtain ⟨rfl, hrest⟩ := hnumbers
    rw [Nat.add_comm rest.length, ← Nat.add_assoc] at hlast ⊢
    exact ih (lanesOk_place h (convert_lt x m job.width p) (by omega)) hrest hlast

/-! ## The path after one pixel -/

theorem wordAfter_of_full {f : Format} {n k : Nat} (w : Word)
    (h : k % f.perWord + 1 = f.perWord ∨ k + 1 = n) : wordAfter f n k w = none := if_pos h

theorem wordAfter_of_not_full {f : Format} {n k : Nat} (w : Word)
    (h : ¬(k % f.perWord + 1 = f.perWord ∨ k + 1 = n)) : wordAfter f n k w = some w := if_neg h

/-- The law of the path in the middle of a job, but for the segment number. -/
def PathAt (x : Context) (job : Job) (p : PixelPath) : Prop :=
  p.next < job.count ∧ HeldAt x job p.held p.next p.done ∧
    (p.inWord = none ↔ p.next % x.src.perWord = 0) ∧ LanesOk x.dst p.done p.outWord

theorem pathAt_result {x : Channel} {job : Job} (h : PathAt x.ctx job x.path)
    (bank : List (Nat × Entry)) (m : ReductionMap) (w : Word) (rest : List Word)
    (hnext : x.path.next + 1 ≠ job.count) :
    PathAt x.ctx job (resultOf x job bank m w rest).path := by
  obtain ⟨hlt, hheld, -, hout⟩ := h
  obtain ⟨hnumbers, hheld', -⟩ := edge_numbers (keyedEntry x bank w) hheld (Prod.mk.eta.symm)
  have hreleased : x.path.done + (edgeOf x job bank w).1.length < job.count := by
    have hle : x.path.done + (edgeOf x job bank w).1.length ≤ x.path.next + 1 := by
      change HeldAt x.ctx job (edgeOf x job bank w).2 _ _ at hheld'
      cases hcase : (edgeOf x job bank w).2 with
      | none => exact le_of_eq (hcase ▸ hheld' :)
      | some p =>
        rw [hcase] at hheld'
        exact Nat.le_of_succ_le (le_of_eq hheld'.1)
    omega
  refine ⟨by dsimp only [resultOf]; omega, hheld', ?_, lanesOk_pack hout hnumbers hreleased⟩
  dsimp only [resultOf]
  by_cases hfull : x.path.next % x.ctx.src.perWord + 1 = x.ctx.src.perWord
  · rw [wordAfter_of_full w (.inl hfull)]
    exact iff_of_true rfl (succ_mod_of_last hfull)
  · rw [wordAfter_of_not_full w (by simp [hfull, hnext]),
      succ_mod_of_not_last (perWord_pos _) hfull]
    simp

theorem pathAt_fresh (x : Context) {job : Job} (h : job.valid = true) :
    PathAt x job PixelPath.fresh := by
  have hcount : job.count ≠ 0 := by
    simp only [Job.valid, Bool.and_eq_true, decide_eq_true_eq] at h
    exact h.1.1
  exact ⟨Nat.pos_of_ne_zero hcount, rfl, by simp [PixelPath.fresh],
    by simp [LanesOk, PixelPath.fresh]⟩

/-! ## Segments (R118) -/

/-- Before the last pixel of its segment, the next pixel is of the same segment. -/
theorem segmentOf_succ_same {l n k : Nat} (hlast : k ≠ segmentLast l n (segmentOf l n k))
    (hnext : k + 1 < n) : segmentOf l n (k + 1) = segmentOf l n k := by
  unfold segmentOf segmentLast at *
  by_cases hone : l = 0 ∨ n ≤ l
  · rw [if_pos hone, if_pos hone]
  · rw [if_neg hone] at hlast ⊢
    rw [if_neg hone] at hlast ⊢
    obtain ⟨hpos, hmany⟩ := not_or.1 hone
    have hbelow : k < (k / l + 1) * l := by
      rw [Nat.mul_comm]
      exact Nat.lt_mul_div_succ k (Nat.pos_of_ne_zero hpos)
    have hfloor : k / l * l ≤ k := Nat.div_mul_le_self k l
    refine Nat.div_eq_of_lt_le (by omega) ?_
    omega

/-- The pixel after the last of a segment is of the next one. -/
theorem segmentOf_succ_last {l n k : Nat} (hlast : k = segmentLast l n (segmentOf l n k))
    (hnext : k + 1 < n) : segmentOf l n (k + 1) = segmentOf l n k + 1 := by
  unfold segmentOf segmentLast at *
  by_cases hone : l = 0 ∨ n ≤ l
  · rw [if_pos hone] at hlast
    omega
  · rw [if_neg hone] at hlast ⊢
    rw [if_neg hone] at hlast ⊢
    obtain ⟨hpos, hmany⟩ := not_or.1 hone
    have hfloor : k / l * l ≤ k := Nat.div_mul_le_self k l
    have hsplit : (k / l + 1) * l = k / l * l + l := by ring
    have hend : k + 1 = (k / l + 1) * l := by omega
    rw [hend, Nat.mul_div_cancel _ (Nat.pos_of_ne_zero hpos)]

/-! ## The law of one channel -/

/-- The segment the channel's next pixel is of: in POST the one after the segment just ended. -/
def segmentDue (x : Channel) : Nat :=
  match x.state with
  | .post _ => x.segment + 1
  | .idle | .wait _ | .run | .halted => x.segment

theorem pathOk_iff (x : Channel) : PathOk x ↔ (MidJob x → ∃ job rest, x.jobs = job :: rest ∧
    PathAt x.ctx job x.path ∧
    segmentOf x.ctx.segLen.toNat job.count x.path.next = segmentDue x) := by
  refine forall_congr' fun hmid => exists_congr fun job => exists_congr fun rest => ?_
  unfold PathAt LanesOk segmentDue
  cases x.state <;> simp only [and_assoc] <;> rfl

theorem pathOk_of_not_mid {x : Channel} (h : ¬MidJob x) : PathOk x := fun hmid => absurd hmid h

/-- The law says nothing of more than the head descriptor, the context, the path, and the segment
due. -/
theorem pathOk_of_same {x y : Channel} (h : PathOk x) (hmid : MidJob y → MidJob x)
    (hjobs : ∃ l, y.jobs = x.jobs ++ l) (hctx : y.ctx = x.ctx) (hpath : y.path = x.path)
    (hsegment : MidJob y → segmentDue y = segmentDue x) : PathOk y := by
  rw [pathOk_iff] at h ⊢
  intro hy
  obtain ⟨job, rest, hhead, hat, hdue⟩ := h (hmid hy)
  obtain ⟨l, hl⟩ := hjobs
  refine ⟨job, rest ++ l, by rw [hl, hhead, List.cons_append], ?_, ?_⟩
  · rw [hctx, hpath]
    exact hat
  · rw [hctx, hpath, hdue, hsegment hy]

theorem pathOk_nextJob {x : Channel} (hvalid : ∀ j ∈ x.jobs, j.valid = true) :
    PathOk x.nextJob := by
  obtain ⟨-, h⟩ | ⟨j, rest, hjobs, h⟩ := x.nextJob_cases
  · rw [h]
    exact pathOk_of_not_mid id
  · rw [h, pathOk_iff]
    refine fun _ => ⟨j, rest, hjobs, pathAt_fresh _ (hvalid j (by simp [hjobs])), ?_⟩
    simp [segmentOf, segmentDue, PixelPath.fresh]

theorem pathOk_posted {x : Channel} (hvalid : ∀ j ∈ x.jobs, j.valid = true) (h : PathOk x)
    {r : EventRecord} (hpost : x.state = .post r) : PathOk (x.posted r) := by
  have hnext : PathOk (Channel.nextJob { x with jobs := x.jobs.tail }) :=
    pathOk_nextJob fun j hj => hvalid j (List.mem_of_mem_tail hj)
  unfold Channel.posted
  split
  next hkind =>
    refine pathOk_of_same h (fun _ => ?_) ⟨[], (List.append_nil _).symm⟩ rfl rfl fun _ => ?_
    · unfold MidJob
      rw [hpost]
      exact hkind
    · unfold segmentDue
      rw [hpost]
  next => exact pathOk_of_not_mid id
  all_goals exact hnext

/-- What a pixel step before the job's last pixel leaves of the path. -/
theorem pathAt_withStep {s : State} {c : Chan} {job : Job} {r : PixelResult}
    (h : PathOk (s.chan c)) (hready : s.pixelReady c = some (job, r))
    (hnext : (s.chan c).path.next + 1 ≠ job.count) :
    (∃ rest, (s.chan c).jobs = job :: rest) ∧ PathAt (s.chan c).ctx job r.path ∧
      r.path.next = (s.chan c).path.next + 1 ∧ (s.chan c).path.next + 1 < job.count ∧
      segmentOf (s.chan c).ctx.segLen.toNat job.count (s.chan c).path.next =
        (s.chan c).segment := by
  obtain ⟨⟨rest, hjobs⟩, hrun, hwork, -⟩ := pixelReady_eq_some_iff.1 hready
  obtain ⟨w, fifo, -, rfl⟩ := pixelWork_eq_some_iff.1 hwork
  obtain ⟨j, rest', hjobs', hat, hdue⟩ := (pathOk_iff _).1 h (by unfold MidJob; rw [hrun]; trivial)
  obtain ⟨rfl, -⟩ := List.cons.inj (hjobs.symm.trans hjobs')
  refine ⟨⟨rest, hjobs⟩, pathAt_result hat _ _ _ _ hnext, rfl, ?_, hdue.trans ?_⟩
  · have hlt := hat.1
    omega
  · unfold segmentDue
    rw [hrun]

theorem pathOk_chanMove {s : State} {c : Chan} {y : Channel} (hok : ChannelOk (s.chan c))
    (h : PathOk (s.chan c)) (hmove : ChanMove s c (s.chan c) y) : PathOk y := by
  obtain ⟨-, hvalid, -⟩ := hok
  cases hmove with
  | context k hjob =>
    refine pathOk_of_not_mid fun hmid => ?_
    unfold MidJob at hmid
    dsimp only at hmid
    cases hstate : (s.chan c).state <;> simp [hstate, ChanState.hasJob] at hjob hmid
  | push j hj _ =>
    obtain ⟨-, heq⟩ | ⟨-, heq⟩ := push_cases (s.chan c) j
    · rw [heq]
      exact pathOk_of_same h id ⟨[j], rfl⟩ rfl rfl fun _ => rfl
    · rw [heq]
      exact pathOk_nextJob (by simpa [or_imp, forall_and] using ⟨hvalid, hj⟩)
  | resume _ => exact pathOk_nextJob hvalid
  | reset _ => exact pathOk_of_not_mid id
  | waitBank hwait _ =>
    exact pathOk_of_same h (fun _ => by unfold MidJob; rw [hwait]; trivial)
      ⟨[], (List.append_nil _).symm⟩ rfl rfl fun _ => by unfold segmentDue; rw [hwait]
  | waitMap hwait _ =>
    exact pathOk_of_same h (fun _ => by unfold MidJob; rw [hwait]; trivial)
      ⟨[], (List.append_nil _).symm⟩ rfl rfl fun _ => by unfold segmentDue; rw [hwait]
  | fault f _ _ =>
    exact pathOk_of_not_mid fun hmid => by cases (hmid : EventKind.jobFault = .segment)
  | posted r hpost => exact pathOk_posted hvalid h hpost
  | pixel job r hready hnext hlast =>
    obtain ⟨⟨rest, hjobs⟩, hat, hpath, hlt, hsegment⟩ := pathAt_withStep h hready hnext
    have hrun := (pixelReady_eq_some_iff.1 hready).2.1
    refine (pathOk_iff _).2 fun _ => ⟨job, rest, hjobs, hat, ?_⟩
    have hsame := segmentOf_succ_same (hsegment.symm ▸ hlast) hlt
    calc segmentOf (s.chan c).ctx.segLen.toNat job.count r.path.next = (s.chan c).segment := by
          rw [hpath, hsame, hsegment]
      _ = segmentDue ((s.chan c).withStep r) := by
          unfold segmentDue Channel.withStep
          dsimp only
          rw [hrun]
  | registers | input | output | stall =>
    exact pathOk_of_same h id ⟨[], (List.append_nil _).symm⟩ rfl rfl fun _ => rfl

theorem pathOk_chanLeave {s : State} {c : Chan} {y : Channel} (h : PathOk (s.chan c))
    (hleave : ChanLeave s c (s.chan c) y) : PathOk y := by
  cases hleave with
  | fault f => exact pathOk_of_not_mid fun hmid => by cases (hmid : EventKind.jobFault = .segment)
  | reset => exact pathOk_of_not_mid id
  | jobEnd job r _ _ =>
    exact pathOk_of_not_mid fun hmid => by cases (hmid : EventKind.jobDone = .segment)
  | segmentEnd job r gen hready hnext hlast =>
    obtain ⟨⟨rest, hjobs⟩, hat, hpath, hlt, hsegment⟩ := pathAt_withStep h hready hnext
    have hsucc := segmentOf_succ_last (hsegment.symm ▸ hlast) hlt
    have hdue : segmentOf (s.chan c).ctx.segLen.toNat job.count r.path.next =
        (s.chan c).segment + 1 := by rw [hpath, hsucc, hsegment]
    unfold Channel.segmentEnded
    split <;> exact (pathOk_iff _).2 fun _ => ⟨job, rest, hjobs, hat, hdue⟩

theorem pathOk_step {s : State} {c : Chan} {y : Channel} (hok : ChannelOk (s.chan c))
    (h : PathOk (s.chan c)) (hstep : ChannelStep s c y) : PathOk y := by
  cases hstep with
  | same => exact h
  | move y hmove => exact pathOk_chanMove hok h hmove
  | leave y _ hleave => exact pathOk_chanLeave h hleave
  | start hwait =>
    exact pathOk_of_same h (fun _ => by unfold MidJob; rw [hwait]; trivial)
      ⟨[], (List.append_nil _).symm⟩ rfl rfl fun _ => by unfold segmentDue; rw [hwait]
  | wakeBank b =>
    unfold Channel.wakeForBank
    split
    next hwait =>
      exact pathOk_of_same h (fun _ => by unfold MidJob; rw [hwait.1]; trivial)
        ⟨[], (List.append_nil _).symm⟩ rfl rfl fun _ => by unfold segmentDue; rw [hwait.1]
    next => exact h
  | wakeMap m =>
    unfold Channel.wakeForMap
    split
    next hwait =>
      exact pathOk_of_same h (fun _ => by unfold MidJob; rw [hwait.1]; trivial)
        ⟨[], (List.append_nil _).symm⟩ rfl rfl fun _ => by unfold segmentDue; rw [hwait.1]
    next => exact h
  | reset => exact pathOk_of_not_mid id

/-- Settles O58: a job begins with a fresh path (`pathOk_nextJob`), a pixel keeps the words in hand
and in progress and the held pixel in step (`pathAt_result`), and the segment number follows the
next pixel (`segmentOf_succ_same`, `segmentOf_succ_last`). -/
theorem everyStepKeepsThePixelPathInStep : Obligations.EveryStepKeepsThePixelPathInStep :=
  fun _ _ hs hpaths h =>
    (step_keeps (P := fun u => CollectionsOk u ∧ PathsOk u) (fun _ _ hu => hu)
      (fun _ _ _ hu hmove => ⟨collectionsOk_move hu.1 hmove,
        fun c => pathOk_step (hu.1.2.2.1 c) (hu.2 c) (hmove.channel c)⟩) ⟨hs, hpaths⟩ h).2

end Sys2Proof.Proofs
end

section
/-! PROOFS. Nothing waits for what has happened: waiting channels over moves (R120), and the
requests an IDLE engine has looked at, over commands (R97). -/

namespace Sys2Proof.Proofs

open Sys2Proof Sys2Proof.Machine Sys2Proof.Safety

/-! ## Waiting channels (R120) -/

/-- The map keeps a segment back (Table 7-4). -/
def MapBusy (s : State) (m : MapId) : Prop :=
  (s.map m).state = .building ∨ s.buildPending m = true

theorem waitOk_iff (s : State) (x : Channel) : WaitOk s x ↔
    (x.state = .wait .bankCommit → x.ctx.src = .i8 ∧ s.sealedPending x.ctx.bank = true) ∧
      (x.state = .wait .mapBusy → x.ctx.dst = .i8 ∧ MapBusy s x.ctx.map) := by
  unfold WaitOk MapBusy
  rw [bankHoldsBack_iff, mapHoldsBack_iff]

theorem waitOk_of_not_waiting {s : State} {x : Channel} (hbank : x.state ≠ .wait .bankCommit)
    (hmap : x.state ≠ .wait .mapBusy) : WaitOk s x :=
  ⟨fun h => absurd h hbank, fun h => absurd h hmap⟩

theorem waitOk_nextJob (s : State) (x : Channel) : WaitOk s x.nextJob := by
  obtain ⟨-, h⟩ | ⟨j, rest, -, h⟩ := x.nextJob_cases <;>
    exact waitOk_of_not_waiting (by simp [h]) (by simp [h])

theorem waitOk_posted (s : State) (x : Channel) (r : EventRecord) : WaitOk s (x.posted r) := by
  unfold Channel.posted
  split
  · exact waitOk_of_not_waiting (by simp) (by simp)
  · exact waitOk_of_not_waiting (by simp) (by simp)
  all_goals exact waitOk_nextJob s _

theorem waitOk_chanMove {s : State} {c : Chan} {x y : Channel} (h : WaitOk s x)
    (hmove : ChanMove s c x y) : WaitOk s y := by
  cases hmove with
  | context k hjob =>
    refine waitOk_of_not_waiting (fun hwait => ?_) fun hwait => ?_ <;>
      exact absurd hjob (by rw [show x.state = _ from hwait]; decide)
  | push j _ _ =>
    obtain ⟨-, heq⟩ | ⟨-, heq⟩ := push_cases x j
    · rw [heq]
      exact h
    · rw [heq]
      exact waitOk_nextJob s _
  | resume _ => exact waitOk_nextJob s x
  | reset _ =>
    exact waitOk_of_not_waiting (by simp [Channel.chanReset, Channel.reset])
      (by simp [Channel.chanReset, Channel.reset])
  | waitBank _ hback => exact ⟨fun _ => hback, fun hwait => by simp at hwait⟩
  | waitMap _ hback => exact ⟨fun hwait => by simp at hwait, fun _ => hback⟩
  | fault f _ _ =>
    exact waitOk_of_not_waiting (by simp [Channel.faulted]) (by simp [Channel.faulted])
  | posted r _ => exact waitOk_posted s x r
  | registers | input | output | stall | pixel => exact h

theorem waitOk_chanLeave {s : State} {c : Chan} {x y : Channel} (hleave : ChanLeave s c x y) :
    WaitOk s y := by
  cases hleave with
  | fault f => exact waitOk_of_not_waiting (by simp [Channel.faulted]) (by simp [Channel.faulted])
  | reset =>
    exact waitOk_of_not_waiting (by simp [Channel.chanReset, Channel.reset])
      (by simp [Channel.chanReset, Channel.reset])
  | jobEnd job r _ _ =>
    exact waitOk_of_not_waiting (by simp [Channel.jobEnded]) (by simp [Channel.jobEnded])
  | segmentEnd job r gen _ _ _ =>
    unfold Channel.segmentEnded
    split <;> exact waitOk_of_not_waiting (by simp) (by simp)

theorem waitOk_step {s : State} {c : Chan} {y : Channel} (h : WaitOk s (s.chan c))
    (hstep : ChannelStep s c y) : WaitOk s y := by
  cases hstep with
  | same => exact h
  | move y hmove => exact waitOk_chanMove h hmove
  | leave y _ hleave => exact waitOk_chanLeave hleave
  | start _ => exact waitOk_of_not_waiting (by simp) (by simp)
  | wakeBank b =>
    unfold Channel.wakeForBank
    split
    · exact waitOk_of_not_waiting (by simp) (by simp)
    · exact h
  | wakeMap m =>
    unfold Channel.wakeForMap
    split
    · exact waitOk_of_not_waiting (by simp) (by simp)
    · exact h
  | reset => exact waitOk_of_not_waiting (by decide) (by decide)

section
variable {i : Instr} {s t : State}

/-- A sealed-pending flag clears only with the channels that wait for it woken, or reset (R120). -/
theorem sealed_of_move (h : Move i s t) {b : BankId} (hsealed : s.sealedPending b = true) :
    t.sealedPending b = true ∨ (∀ c, t.chan c = (s.chan c).wakeForBank b) ∨
      ∀ c, t.chan c = Channel.reset := by
  have hkept (huq : t.uq = s.uq) : t.sealedPending b = true := by
    rwa [State.sealedPending, State.commitOf, huq]
  have hcommit (hset : t.commitOf b ≠ .none) : t.sealedPending b = true :=
    (sealedPending_iff t b).2 hset
  have hset := (sealedPending_iff s b).1 hsealed
  cases h with
  | book u hu _ _ => exact .inl (hkept (by rw [hu]))
  | showNext _ =>
    refine .inl (hcommit ?_)
    rw [showNext_spec, State.commitOf]
    dsimp only
    split
    · rw [PerBank.get_set]
      split
      · decide
      · exact hset
    · exact hset
  | leave c y _ _ => exact .inl (hkept (by rw [dropHolds_spec]; rfl))
  | start c _ _ _ _ => exact .inl (hkept (by rw [State.takeHolds_spec]; rfl))
  | enter r _ _ _ => exact .inl (hkept (s.enterBuilding_uq r))
  | cell x _ _ _ => exact .inl (hkept (by rw [writeCell_spec]))
  | finish x _ _ _ => exact .inl (hkept (by rw [finished_spec]))
  | abort m _ => exact .inl (hkept (by rw [aborted_spec]))
  | sealRecords d n _ _ =>
    refine .inl (hcommit ?_)
    have heq : (afterSeal s d n).commitOf b =
        if b = d then (if s.commitOf d = .none then .pending else s.commitOf d)
        else s.commitOf b := PerBank.get_set _ _ _ _
    rw [heq]
    split
    next hb =>
      rw [← hb, if_neg hset]
      exact hset
    next => exact hset
  | commit d _ _ =>
    by_cases hb : b = d
    · rw [hb]
      exact .inr (.inl fun c => commit_chan s d c)
    · refine .inl (hcommit ?_)
      rw [commit_commitOf, if_neg hb]
      exact hset
  | defer d _ _ _ =>
    refine .inl (hcommit ?_)
    rw [State.commitOf_setCommit]
    split
    · decide
    · exact hset
  | write d v _ _ _ => exact .inl (hkept (by rw [directWrite_eq_notice, State.notice_uq]; rfl))
  | softReset _ _ => exact .inr (.inr (chan_softReset s))
  | fullReset _ => exact .inr (.inr (chan_fullReset s))
  | display | darken | settings | claim | unclaim | insert | chan | engine | unpost | request
  | unrequest | fail | stage | port => exact .inl hsealed

/-- A map that keeps segments back does so until the channels that wait for it are woken, or reset
(R120). -/
theorem busy_of_move (h : Move i s t) {m : MapId} (hbusy : MapBusy s m) :
    MapBusy t m ∨ (∀ c, t.chan c = (s.chan c).wakeForMap m) ∨ ∀ c, t.chan c = Channel.reset := by
  have hkept (hstate : (s.map m).state = .building → (t.map m).state = .building)
      (hrequests : ∀ q ∈ s.engine.requests, q.map = m → q ∈ t.engine.requests) : MapBusy t m := by
    refine hbusy.imp hstate fun hpending => ?_
    obtain ⟨q, hq, hmap⟩ := (buildPending_iff s m).1 hpending
    exact (buildPending_iff t m).2 ⟨q, hrequests q hq hmap, hmap⟩
  have hset {k : MapId} {x : ReductionMap} (hmaps : t.maps = s.maps.set k x)
      (hk : k ≠ m) : (t.map m).state = (s.map m).state := by
    rw [State.map, hmaps, PerMap.get_set_other _ _ _ _ (Ne.symm hk)]
    rfl
  have hchange {b : BankId} (hmap : ∀ k, t.map k = mapAfterChange (s.map k) b)
      (hrequests : RequestsAfterChange s b t.engine.requests) : MapBusy t m := by
    obtain ⟨new, heq, -⟩ := hrequests
    refine hkept (fun hm => ?_) fun q hq _ => by rw [heq]; exact List.mem_append_left _ hq
    rw [hmap]
    exact (mapAfterChange_frame _ b).2.2 hm
  cases h with
  | book u hu _ _ => exact .inl (hkept (by rw [hu]; exact id) (by rw [hu]; exact fun _ hq _ => hq))
  | showNext _ =>
    rw [showNext_spec]
    exact .inl hbusy
  | leave c y _ _ =>
    refine .inl (hkept (fun hm => ?_) fun q hq _ => ?_)
    · rw [dropHolds_map]
      exact hm
    · rw [dropHolds_spec]
      exact hq
  | start c _ _ _ _ =>
    refine .inl (hkept (fun hm => ?_) fun q hq _ => ?_)
    · rw [takeHolds_map]
      exact hm
    · rw [State.takeHolds_spec]
      exact hq
  | engine e _ _ _ hrequests => exact .inl (hkept id fun q hq _ => hrequests ▸ hq)
  | request r _ _ _ => exact .inl (hkept id fun q hq _ => List.mem_append_left _ hq)
  | unrequest k =>
    by_cases hk : k = m
    · rw [hk]
      exact .inr (.inl fun c => (s.dropRequest m).wakeMap_chan m c)
    · refine .inl (hkept id fun q hq hmap => List.mem_filter.2 ⟨hq, decide_eq_true ?_⟩)
      rw [hmap]
      exact Ne.symm hk
  | enter r _ _ _ =>
    rw [enterBuilding_eq] at hset hkept ⊢
    by_cases hk : r.map = m
    · exact .inl
        (.inl (by rw [← hk]; exact congrArg ReductionMap.state (PerMap.get_set_same _ _ _)))
    · refine .inl (hkept (fun hm => (hset rfl hk).trans hm) fun q hq hmap =>
        List.mem_filter.2 ⟨hq, decide_eq_true ?_⟩)
      rw [hmap]
      exact Ne.symm hk
  | fail r _ _ _ =>
    by_cases hk : r.map = m
    · rw [← hk]
      exact .inr (.inl fun c => State.wakeMap_chan _ _ c)
    · refine .inl (hkept (fun hm => (hset (k := r.map) rfl hk).trans hm) fun q hq hmap =>
        List.mem_filter.2 ⟨hq, decide_eq_true ?_⟩)
      rw [hmap]
      exact Ne.symm hk
  | cell x _ _ _ =>
    refine .inl (hkept (fun hm => ?_) fun q hq _ => ?_)
    · rw [writeCell_spec, State.map, PerMap.get_set]
      split
      next heq => rw [← heq]; exact hm
      next => exact hm
    · rw [writeCell_spec]
      exact hq
  | finish x _ _ _ =>
    by_cases hk : s.engine.current = m
    · refine .inr (.inl fun c => ?_)
      rw [finished_spec, ← hk]
      exact State.wakeMap_chan _ _ c
    · rw [finished_spec] at hset hkept ⊢
      exact .inl (hkept (fun hm => (hset rfl hk).trans hm) fun q hq _ => hq)
  | abort k _ =>
    by_cases hk : k = m
    · refine .inr (.inl fun c => ?_)
      rw [aborted_spec, hk]
      exact State.wakeMap_chan _ _ c
    · rw [aborted_spec] at hset hkept ⊢
      exact .inl (hkept (fun hm => (hset rfl hk).trans hm) fun q hq _ => hq)
  | commit b _ _ => exact .inl (hchange (commit_map s b) (commit_engine s b).2)
  | write b v _ _ _ =>
    exact .inl (hchange (notice_map (written s b v) b) (notice_engine (written s b v) b).2)
  | softReset _ _ => exact .inr (.inr (chan_softReset s))
  | fullReset _ => exact .inr (.inr (chan_fullReset s))
  | display | darken | settings | claim | unclaim | insert | chan | unpost | stage | sealRecords
  | defer | port => exact .inl hbusy

/-- A woken channel does not wait for what woke it. -/
theorem not_waiting_of_wakeForBank {x : Channel} {b : BankId}
    (h : (x.wakeForBank b).state = .wait .bankCommit) : (x.wakeForBank b).ctx.bank ≠ b := by
  unfold Channel.wakeForBank at h ⊢
  split at h
  next => simp at h
  next hnot =>
    rw [if_neg hnot]
    exact fun heq => hnot ⟨h, heq⟩

theorem not_waiting_of_wakeForMap {x : Channel} {m : MapId}
    (h : (x.wakeForMap m).state = .wait .mapBusy) : (x.wakeForMap m).ctx.map ≠ m := by
  unfold Channel.wakeForMap at h ⊢
  split at h
  next => simp at h
  next hnot =>
    rw [if_neg hnot]
    exact fun heq => hnot ⟨h, heq⟩

theorem waitsOk_move (hs : WaitsOk s) (h : Move i s t) : WaitsOk t := by
  intro c
  obtain ⟨hbank, hmap⟩ := (waitOk_iff s _).1 (waitOk_step (hs c) (h.channel c))
  refine (waitOk_iff t _).2 ⟨fun hwait => ⟨(hbank hwait).1, ?_⟩, fun hwait => ⟨(hmap hwait).1, ?_⟩⟩
  · obtain hsealed | hwoken | hreset := sealed_of_move h (hbank hwait).2
    · exact hsealed
    · have hchan := hwoken c
      exact absurd (congrArg (fun x => x.ctx.bank) hchan).symm
        (not_waiting_of_wakeForBank (by rw [← hchan]; exact hwait))
    · rw [hreset c] at hwait
      exact absurd hwait (by decide)
  · obtain hbusy | hwoken | hreset := busy_of_move h (hmap hwait).2
    · exact hbusy
    · have hchan := hwoken c
      exact absurd (congrArg (fun x => x.ctx.map) hchan).symm
        (not_waiting_of_wakeForMap (by rw [← hchan]; exact hwait))
    · rw [hreset c] at hwait
      exact absurd hwait (by decide)

end

/-! ## Requests before an IDLE engine (R97) -/

section
variable {s t : State}

theorem noBuildMissed_of_busy (h : t.engine.state ≠ .idle) : NoBuildMissed t :=
  fun hidle => absurd hidle h

theorem startBuild_busy {r : BuildRequest} (hstart : s.startable r = true) :
    (s.startBuild r).engine.state ≠ .idle := by
  rw [startBuild_eq]
  split
  · rw [noCandidates_enterBuilding ((startable_iff s r).1 hstart).2]
    simp [State.wakeMap]
  · rw [enterBuilding_eq]
    simp

/-- After its look the engine is not IDLE, or no request can be started. -/
theorem noBuildMissed_look (s : State) : NoBuildMissed s.lookForBuild := by
  unfold State.lookForBuild
  split
  · split
    next r hr => exact noBuildMissed_of_busy (startBuild_busy (List.find?_some hr))
    next hnone => exact fun _ r hr => by simpa using List.find?_eq_none.1 hnone r hr
  next hstate => exact noBuildMissed_of_busy (by simp [hstate])
  next hstate => exact noBuildMissed_of_busy (by simp [hstate])

/-- The law says nothing of more than the engine's state, the requests, the maps' holds and the
commit states; and fewer requests or more holds do no harm. -/
theorem noBuildMissed_of_less (hs : NoBuildMissed s)
    (hidle : t.engine.state = .idle → s.engine.state = .idle)
    (hrequests : ∀ r ∈ t.engine.requests, r ∈ s.engine.requests)
    (hmap : ∀ m, (t.map m).holders = 0 → (s.map m).holders = 0)
    (hcommit : ∀ b, t.commitOf b = s.commitOf b) : NoBuildMissed t := by
  intro hnow r hr
  have hfalse := hs (hidle hnow) r (hrequests r hr)
  by_contra hstart
  rw [Bool.not_eq_false, startable_iff, hcommit] at hstart
  have htrue : s.startable r = true := (startable_iff s r).2 ⟨hmap _ hstart.1, hstart.2⟩
  simp [hfalse] at htrue

theorem noBuildMissed_onBus (hs : NoBuildMissed s) {f : State → State} (h : onBus s f = .next t)
    (hf : NoBuildMissed (f s)) : NoBuildMissed t := by
  obtain rfl | rfl := onBus_next_cases h
  · exact hs
  · exact hf

/-- A host access that only sets a flag or changes a part without bearing on builds, either way. -/
theorem noBuildMissed_ite {p : Prop} [Decidable p] {u : State} (ht : NoBuildMissed t)
    (hu : NoBuildMissed u) : NoBuildMissed (if p then t else u) := by
  split
  · exact ht
  · exact hu

theorem noBuildMissed_frameStart (hs : NoBuildMissed s) (h : exec .frameStart s = .next t) :
    NoBuildMissed t := by
  simp only [exec, execFrameStart] at h
  split at h
  · exact eq_of_next h ▸ hs
  · exact eq_of_next h ▸ noBuildMissed_look _
  · split at h <;> exact eq_of_next h ▸ noBuildMissed_look _

theorem noBuildMissed_writeEngCtrl (hs : NoBuildMissed s) (reset e : Bool) (en : IrqEnables) :
    NoBuildMissed (s.writeEngCtrl reset e en) := by
  have hreset : NoBuildMissed (if reset then s.softReset else s) :=
    noBuildMissed_ite (fun _ r hr => absurd hr List.not_mem_nil) hs
  unfold State.writeEngCtrl
  generalize (if reset then s.softReset else s) = u at hreset
  cases e with
  | true =>
    change NoBuildMissed (State.enableScanout { u with enables := en })
    unfold State.enableScanout
    split <;> exact hreset
  | false =>
    change NoBuildMissed (State.disableScanout { u with enables := en })
    unfold State.disableScanout
    split
    · exact hreset
    · exact hreset
    · exact noBuildMissed_look _

theorem judgeBank_engineState (s : State) (b : BankId) :
    (s.judgeBank b).engine.state = s.engine.state := by
  obtain ⟨-, h⟩ | ⟨-, h⟩ := s.judgeBank_cases b
  · rw [h]
  · obtain ⟨-, heq⟩ | ⟨-, heq⟩ := s.attemptCommit_cases b
    · rw [h, heq]
      rfl
    · rw [h, heq, (commit_engine s b).1]

theorem noBuildMissed_bldCmdAbort (hs : NoBuildMissed s) (m : MapId) :
    NoBuildMissed (if (s.map m).state = .building then s.abortBuild m
      else if s.buildPending m = true ∧ s.engine.abortSlot = none then
        ((s.dropRequest m).slotRecord (buildFault m .aborted)).wakeMap m
      else s.flag .cmdIgnored) := by
  refine noBuildMissed_ite (noBuildMissed_of_busy ?_) (noBuildMissed_ite ?_ hs)
  · rw [abortBuild_eq_judge, judgeBank_engineState, aborted_spec]
    simp
  · unfold State.slotRecord
    split <;>
      exact noBuildMissed_of_less hs id (fun r hr => List.mem_of_mem_filter hr) (fun _ => id)
        fun _ => rfl

theorem noBuildMissed_cellCompletion (hs : NoBuildMissed s)
    (h : exec .cellCompletion s = .next t) : NoBuildMissed t := by
  simp only [exec, execCellCompletion] at h
  split at h
  · exact eq_of_next h ▸ hs
  · exact eq_of_next h ▸ hs
  next hbuilding =>
    split at h
    · exact eq_of_next h ▸ hs
    · split at h
      · rw [eq_of_next h, completeBuild_eq_judge]
        refine noBuildMissed_of_busy ?_
        rw [judgeBank_engineState, finished_spec]
        simp
      · rw [eq_of_next h, writeCell_spec]
        exact noBuildMissed_of_busy (by simp [hbuilding])

theorem noBuildMissed_segmentStart (hs : NoBuildMissed s) {c : Chan}
    (h : exec (.segmentStartAttempt c) s = .next t) : NoBuildMissed t := by
  simp only [exec, execSegmentStartAttempt] at h
  split at h
  next hwait =>
    rw [eq_of_next h]
    unfold State.attemptSegment
    refine noBuildMissed_ite hs (noBuildMissed_ite hs (noBuildMissed_ite ?_ ?_))
    · obtain ⟨-, heq⟩ | ⟨hrun, -⟩ := s.faultJob_cases c .mapUnusable
      · rw [heq]
        exact hs
      · simp [hwait] at hrun
    · refine noBuildMissed_of_less hs (by rw [State.takeHolds_spec]; exact id)
        (by rw [State.takeHolds_spec]; exact fun _ hr => hr) (fun m hfree => ?_)
        fun b => by rw [State.takeHolds_spec]; rfl
      rw [takeHolds_map] at hfree
      exact Nat.eq_zero_of_add_eq_zero_right hfree
  next => exact eq_of_next h ▸ hs

theorem noBuildMissed_pixelStep (hs : NoBuildMissed s) {c : Chan}
    (h : exec (.pixelStep c) s = .next t) : NoBuildMissed t := by
  simp only [exec, execPixelStep] at h
  split at h
  · rw [eq_of_next h]
    exact noBuildMissed_ite (noBuildMissed_look _) (noBuildMissed_ite (noBuildMissed_look _) hs)
  · exact eq_of_next h ▸ hs

theorem noBuildMissed_insertion (hs : NoBuildMissed s) (h : exec .insertionEvent s = .next t) :
    NoBuildMissed t := by
  simp only [exec, execInsertionEvent] at h
  split at h
  next p _ =>
    rw [eq_of_next h]
    cases p with
    | enginePost r => exact noBuildMissed_look _
    | abortSlot r => exact hs
    | channel c r => exact hs
    | deferred b => exact noBuildMissed_look _
  next => exact eq_of_next h ▸ hs

theorem noBuildMissed_apDataWrite (hs : NoBuildMissed s) {v : Word}
    (h : execApDataWrite v s = .next t) : NoBuildMissed t := by
  refine noBuildMissed_onBus hs h ?_
  dsimp only
  split
  · exact noBuildMissed_ite (noBuildMissed_look _) hs
  · exact hs

theorem noBuildMissed_stgHdr (hs : NoBuildMissed s) (h : StgHeader) :
    NoBuildMissed (if s.uq.openRecord = none then s.openRecord h
      else ((s.withRecords s.uq.withoutOpen).flag .stageRefused).openRecord h) := by
  unfold State.openRecord
  exact noBuildMissed_ite (noBuildMissed_ite hs hs) (noBuildMissed_ite hs hs)

theorem noBuildMissed_fetchCompletion (hs : NoBuildMissed s)
    (h : exec .fetchCompletion s = .next t) : NoBuildMissed t := by
  simp only [exec, execFetchCompletion] at h
  split at h
  · exact eq_of_next h ▸ hs
  · split at h <;> exact eq_of_next h ▸ hs

/-- A command that may make a request startable ends in the engine's look; the others leave the
law's parts, take requests away, give holds, or leave the engine at work. -/
theorem noBuildMissed_exec {i : Instr} (hs : NoBuildMissed s) (h : exec i s = .next t) :
    NoBuildMissed t := by
  unfold exec at h
  cases i with
  | fullReset => exact eq_of_next h ▸ fun _ r hr => absurd hr List.not_mem_nil
  | frameStart => exact noBuildMissed_frameStart hs h
  | lookup x => exact eq_of_next h ▸ hs
  | tick => exact eq_of_next h ▸ noBuildMissed_look _
  | stalled c => exact eq_of_next h ▸ noBuildMissed_ite (noBuildMissed_look _) hs
  | overdue => exact eq_of_next h ▸ noBuildMissed_ite hs hs
  | invalidAccess write width offset =>
    exact noBuildMissed_onBus hs h (noBuildMissed_ite (by cases write <;> exact hs) hs)
  | wrongTypeAccess write r =>
    exact noBuildMissed_onBus hs h (noBuildMissed_ite (by cases write <;> exact hs) hs)
  | registerWrite r v => exact noBuildMissed_onBus hs h (by cases r <;> exact hs)
  | softReset e en => exact noBuildMissed_onBus hs h (noBuildMissed_writeEngCtrl hs true e en)
  | scanoutEnable r en => exact noBuildMissed_onBus hs h (noBuildMissed_writeEngCtrl hs r true en)
  | scanoutDisable r en => exact noBuildMissed_onBus hs h (noBuildMissed_writeEngCtrl hs r false en)
  | interruptEnables r e en => exact noBuildMissed_onBus hs h (noBuildMissed_writeEngCtrl hs r e en)
  | tickDiv v => exact noBuildMissed_onBus hs h (noBuildMissed_ite hs hs)
  | eqPop v => exact noBuildMissed_onBus hs h (noBuildMissed_ite hs hs)
  | eqCtrl v => exact noBuildMissed_onBus hs h (noBuildMissed_ite hs hs)
  | insertionEvent => exact noBuildMissed_insertion hs h
  | stgHdr v => exact noBuildMissed_onBus hs h (noBuildMissed_stgHdr hs _)
  | stgData v => exact noBuildMissed_onBus hs h (noBuildMissed_ite hs hs)
  | stgCmdSeal b n => exact noBuildMissed_onBus hs h (noBuildMissed_ite (noBuildMissed_look _) hs)
  | apAddr v => exact noBuildMissed_onBus hs h (by split <;> exact hs)
  | apDataRead => exact noBuildMissed_onBus hs h (by dsimp only; split <;> exact hs)
  | apDataWrite v => exact noBuildMissed_apDataWrite hs h
  | fetchCompletion => exact noBuildMissed_fetchCompletion hs h
  | bldCmdRequest => exact noBuildMissed_onBus hs h (noBuildMissed_ite hs (noBuildMissed_look _))
  | bldCmdAbort m => exact noBuildMissed_onBus hs h (noBuildMissed_bldCmdAbort hs m)
  | buildStart => exact eq_of_next h ▸ noBuildMissed_look _
  | cellCompletion => exact noBuildMissed_cellCompletion hs h
  | ctxWrite c r v =>
    exact noBuildMissed_onBus hs h (noBuildMissed_ite hs (by split <;> exact hs))
  | jobPush c v => exact noBuildMissed_onBus hs h (noBuildMissed_ite hs hs)
  | segmentStartAttempt c => exact noBuildMissed_segmentStart hs h
  | pixelStep c => exact noBuildMissed_pixelStep hs h
  | chIn c v =>
    exact noBuildMissed_onBus hs h (noBuildMissed_ite (noBuildMissed_ite hs hs)
      (noBuildMissed_ite (noBuildMissed_look _) hs))
  | chOut c => exact noBuildMissed_onBus hs h (by dsimp only; split <;> exact hs)
  | chCmdAbort c => exact noBuildMissed_onBus hs h (noBuildMissed_ite (noBuildMissed_look _) hs)
  | chCmdResume c => exact noBuildMissed_onBus hs h (noBuildMissed_ite hs hs)
  | chCmdReset c => exact noBuildMissed_onBus hs h (noBuildMissed_ite (noBuildMissed_look _) hs)
  | hostFaults v | eqHead0 | eqHead1 | eqNext | stgCmdDiscard b | stgCmdIgnored v | scnCtrl v
  | bldCmdIgnored v | chCmdIgnored c v => exact noBuildMissed_onBus hs h hs

theorem noBuildMissed_step (hs : NoBuildMissed s) (h : step s = .next t) : NoBuildMissed t := by
  unfold step at h
  split at h
  · exact eq_of_next h ▸ noBuildMissed_ite (noBuildMissed_look _) hs
  next i rest _ => exact noBuildMissed_exec (s := { s with pending := rest }) hs h

end

/-- Settles O59: what a channel waits for ends only with its waking (`sealed_of_move`,
`busy_of_move`), and what frees a table for a build ends in the engine's look
(`noBuildMissed_exec`). -/
theorem nothingWaitsForWhatHasHappened : Obligations.NothingWaitsForWhatHasHappened :=
  ⟨fun _ _ hs h => step_keeps (fun _ _ hu => hu) (fun _ _ _ hu hmove => waitsOk_move hu hmove) hs h,
    fun _ _ hs h => noBuildMissed_step hs h⟩

end Sys2Proof.Proofs
end

section
/-! PROOFS. The window and the resets: the queue's front command, the state after reset, ENG_CTRL
writes (R156, R179, R180), accesses that reach no block (R176, R177), the registers without a row of
their own (R93, R113, R182), and events outside their conditions (log 9). -/

namespace Sys2Proof.Proofs

open Sys2Proof Sys2Proof.Machine Sys2Proof.Safety

/-- Settles O1: with a command at the front of the queue the step is its meaning. -/
theorem stepRunsTheFrontCommand : Obligations.StepRunsTheFrontCommand := by
  unfold Obligations.StepRunsTheFrontCommand
  intro c rest s hpending
  rw [step, hpending]

/-! ## The state after reset -/

theorem collectionsOk_reset : CollectionsOk State.reset := by
  refine ⟨?_, queueOk_reset, fun c => ?_, State.reset_banks_wf, by decide, by decide⟩
  · exact ⟨Nat.zero_le _, Nat.zero_le _, fun r hr => absurd hr List.not_mem_nil, Nat.zero_le _⟩
  · cases c <;> exact channelOk_reset

/-- Settles O52: nothing is held, pending, waiting or in hand after a reset. -/
theorem resetMeetsEveryInvariant : Obligations.ResetMeetsEveryInvariant := by
  have hidle (c : Chan) : State.reset.chan c = Channel.reset := by cases c <;> rfl
  refine ⟨collectionsOk_reset, holdsAgree_fullReset State.reset, commitsAgree_fullReset State.reset,
    prefetchOk_empty (by decide) rfl fun h => absurd h (by decide),
    mapsOk_idle (fun m => by cases m <;> exact ⟨rfl, rfl, rfl⟩) rfl, fun c => ?_, fun c => ?_,
    fun _ r hr => absurd hr List.not_mem_nil⟩
  · rw [hidle]
    exact pathOk_of_not_mid id
  · rw [hidle]
    exact waitOk_of_not_waiting (by decide) (by decide)

/-! ## ENG_CTRL (R156, R179, R180) -/

/-- The scanout enable arms an OFF unit and leaves one that is ARMED or ON (R156). -/
theorem enableScanout_eq (s : State) : s.enableScanout = { s with scanout := { s.scanout with
    state := if s.scanout.state = .off then .armed else s.scanout.state } } := by
  unfold State.enableScanout
  split
  next h => rw [if_pos h]
  next h => rw [if_neg (by simp [h])]
  next h => rw [if_neg (by simp [h])]

theorem disableScanout_of_not_on {s : State} (h : s.scanout.state ≠ .on) :
    s.disableScanout = { s with scanout := { s.scanout with state := .off } } := by
  unfold State.disableScanout
  split
  next hoff => rw [← hoff]
  next => rfl
  next hon => exact absurd hon h

theorem disableScanout_of_on {s : State} (h : s.scanout.state = .on) : s.disableScanout =
    (State.judgeBank { s with scanout := { s.scanout with state := .off } }
      s.scanout.current).lookForBuild := by
  unfold State.disableScanout
  rw [h]

theorem exec_softReset {s : State} (hfree : s.port.stretched = false) (e : Bool) (en : IrqEnables) :
    exec (.softReset e en) s = .next (s.writeEngCtrl true e en) := by
  rw [exec, execSoftReset, onBus_of_free _ hfree]

theorem exec_scanoutEnable {s : State} (hfree : s.port.stretched = false) (r : Bool)
    (en : IrqEnables) : exec (.scanoutEnable r en) s = .next (s.writeEngCtrl r true en) := by
  rw [exec, execScanoutEnable, onBus_of_free _ hfree]

theorem exec_scanoutDisable {s : State} (hfree : s.port.stretched = false) (r : Bool)
    (en : IrqEnables) : exec (.scanoutDisable r en) s = .next (s.writeEngCtrl r false en) := by
  rw [exec, execScanoutDisable, onBus_of_free _ hfree]

theorem exec_interruptEnables {s : State} (hfree : s.port.stretched = false) (r e : Bool)
    (en : IrqEnables) : exec (.interruptEnables r e en) s = .next (s.writeEngCtrl r e en) := by
  rw [exec, execInterruptEnables, onBus_of_free _ hfree]

theorem lookForBuild_of_no_request {s : State} (h : s.engine.requests = []) :
    s.lookForBuild = s := by
  obtain heq | ⟨r, hr, -⟩ := s.lookForBuild_cases
  · exact heq
  · rw [h] at hr
    exact absurd hr List.not_mem_nil

/-- After a soft reset no bank has sealed records and no request waits, so the disable changes the
scanout state alone. -/
theorem writeEngCtrl_reset (s : State) (e : Bool) (en : IrqEnables) :
    s.writeEngCtrl true e en = { s.softReset with
      enables := en
      scanout := { s.scanout with
        state := if e then (if s.scanout.state = .off then .armed else s.scanout.state)
          else .off } } := by
  cases e with
  | true => exact enableScanout_eq _
  | false =>
    change State.disableScanout { s.softReset with enables := en } = _
    by_cases hon : s.scanout.state = .on
    · rw [disableScanout_of_on (s := { s.softReset with enables := en }) hon, judgeBank_waits]
      · exact lookForBuild_of_no_request rfl
      · refine .inl ?_
        cases h : s.scanout.current <;> simp [State.softReset, State.commitOf, UpdateQueue.reset,
          PerBank.get, h]
    · exact disableScanout_of_not_on hon

theorem enables_disableScanout (s : State) : s.disableScanout.enables = s.enables := by
  by_cases hon : s.scanout.state = .on
  · rw [disableScanout_of_on hon, State.lookForBuild_enables, State.judgeBank_enables]
  · rw [disableScanout_of_not_on hon]

theorem enables_writeEngCtrl (s : State) (r e : Bool) (en : IrqEnables) :
    (s.writeEngCtrl r e en).enables = en := by
  unfold State.writeEngCtrl
  generalize (if r then s.softReset else s) = u
  cases e with
  | true => exact congrArg State.enables (enableScanout_eq { u with enables := en })
  | false => exact enables_disableScanout { u with enables := en }

/-- Settles O6: every row of ENG_CTRL is `writeEngCtrl`, which sets the enables before the scanout
enable is judged. -/
theorem engCtrlWriteSetsTheEnablesAndArmsScanout :
    Obligations.EngCtrlWriteSetsTheEnablesAndArmsScanout := by
  unfold Obligations.EngCtrlWriteSetsTheEnablesAndArmsScanout
  refine ⟨fun en s hfree => ⟨?_, ?_⟩, fun r e en s hfree => ⟨_, exec_interruptEnables hfree r e en,
    enables_writeEngCtrl s r e en, fun h => ?_, fun h => ?_, fun h => ?_⟩⟩
  · rw [exec_scanoutEnable hfree]
    exact congrArg _ (enableScanout_eq { s with enables := en })
  · rw [exec_scanoutEnable hfree, exec_softReset hfree]
  · rw [exec_softReset hfree, h]
  · rw [exec_scanoutEnable hfree, h]
  · rw [exec_scanoutDisable hfree, h]

/-- Settles O5: the soft reset's own values, with what ENG_CTRL then sets (`writeEngCtrl_reset`). -/
theorem softResetEndsWorkAndKeepsThePalette : Obligations.SoftResetEndsWorkAndKeepsThePalette := by
  unfold Obligations.SoftResetEndsWorkAndKeepsThePalette
  intro e en s hfree
  refine ⟨_, exec_softReset hfree e en, ?_⟩
  rw [writeEngCtrl_reset]
  refine ⟨fun b => ?_, rfl, rfl, fun m => ?_, rfl, fun c => ?_, rfl, rfl, rfl, rfl, rfl, rfl, rfl,
    rfl⟩
  · cases b <;> exact ⟨rfl, rfl⟩
  · cases m <;> rfl
  · cases c <;> rfl

/-- Settles O7: the bank shown loses the role with the unit's state, and is then judged without it
(`judgeBank_waits`, `attemptCommit_commits`, `attemptCommit_defers`). -/
theorem scanoutDisableJudgesTheFormerDisplayBank :
    Obligations.ScanoutDisableJudgesTheFormerDisplayBank := by
  unfold Obligations.ScanoutDisableJudgesTheFormerDisplayBank
  intro en s u hfree hu
  have hwrite : s.writeEngCtrl false false en = State.disableScanout { s with enables := en } := rfl
  have hon (h : s.scanout.state = .on) : State.disableScanout { s with enables := en } =
      (u.judgeBank s.scanout.current).lookForBuild := by
    rw [disableScanout_of_on (s := { s with enables := en }) h, hu]
  have hcommit : u.commitOf s.scanout.current = s.commitOf s.scanout.current := by rw [hu]; rfl
  have hbank : u.bank s.scanout.current = s.bank s.scanout.current := by rw [hu]; rfl
  have hrole : u.hasRole s.scanout.current = false := by simp [hu, State.hasRole]
  refine ⟨fun h => ?_, fun h => ⟨fun hwaits => ?_, fun hpending hholders => ⟨fun hroom => ?_,
    fun hasks hfull => ?_⟩⟩, ?_⟩
  · rw [exec_scanoutDisable hfree, hwrite, hu]
    exact congrArg _ (disableScanout_of_not_on h)
  · rw [exec_scanoutDisable hfree, hwrite, hon h, judgeBank_waits]
    rw [hcommit, hbank]
    exact hwaits.imp_right .inl
  · rw [exec_scanoutDisable hfree, hwrite, hon h,
      judgeBank_attempts (hcommit.trans hpending) (by rw [hbank, hholders]) hrole,
      attemptCommit_commits (by rw [hu]; exact hroom)]
  · rw [exec_scanoutDisable hfree, hwrite, hon h,
      judgeBank_attempts (hcommit.trans hpending) (by rw [hbank, hholders]) hrole,
      attemptCommit_defers (by rw [hu]; exact hasks) (by rw [hu]; exact hfull) hrole]
  · rw [exec_scanoutDisable hfree, exec_softReset hfree]

/-! ## Accesses that reach no block (R176, R177) -/

/-- While a read is stretched no access reaches the part. -/
theorem exec_access_of_stretched {i : Instr} {a : HostAccess} {s : State} (h : accessOf i = some a)
    (hstretched : s.port.stretched = true) : exec i s = .next s := by
  unfold exec
  cases i with
  | fullReset | frameStart | lookup | tick | stalled | overdue | insertionEvent | fetchCompletion
  | buildStart | cellCompletion | segmentStartAttempt | pixelStep => simp [accessOf] at h
  | invalidAccess | wrongTypeAccess | registerWrite | softReset | scanoutEnable | scanoutDisable
  | interruptEnables | hostFaults | tickDiv | eqHead0 | eqHead1 | eqNext | eqPop | eqCtrl | stgHdr
  | stgData | stgCmdSeal | stgCmdDiscard | stgCmdIgnored | apAddr | apDataRead | apDataWrite
  | scnCtrl | bldCmdRequest | bldCmdAbort | bldCmdIgnored | ctxWrite | jobPush | chIn | chOut
  | chCmdAbort | chCmdResume | chCmdReset | chCmdIgnored => exact onBus_of_stretched _ hstretched

theorem exec_invalidAccess {s : State} (hfree : s.port.stretched = false) {width offset : Nat}
    (h : accessReg width offset = none) (write : Bool) :
    exec (.invalidAccess write width offset) s = .next (s.badAccess write) := by
  rw [exec, execInvalidAccess, onBus_of_free _ hfree, if_pos h]

theorem exec_wrongTypeAccess {s : State} (hfree : s.port.stretched = false) {write : Bool} {r : Reg}
    (h : (if write then r.writable else r.readable) = false) :
    exec (.wrongTypeAccess write r) s = .next (s.badAccess write) := by
  rw [exec, execWrongTypeAccess, onBus_of_free _ hfree, if_pos h]

/-- Settles O10: such an access only sets BAD_ACCESS, whose bit is the lowest. -/
theorem accessesThatReachNoBlock : Obligations.AccessesThatReachNoBlock := by
  unfold Obligations.AccessesThatReachNoBlock
  exact ⟨fun width offset s hfree hnone =>
      ⟨exec_invalidAccess hfree hnone true, exec_invalidAccess hfree hnone false⟩,
    fun r s hfree => ⟨exec_wrongTypeAccess (write := true) hfree,
      exec_wrongTypeAccess (write := false) hfree⟩,
    fun i a s ha hstretched => exec_access_of_stretched ha hstretched⟩

/-! ## Registers without a row of their own (R93, R113, R182) -/

theorem exec_registerWrite {s : State} (hfree : s.port.stretched = false) (r : PlainReg)
    (v : Word) :
    exec (.registerWrite r v) s = .next (s.writePlain r v) := by
  rw [exec, execRegisterWrite, onBus_of_free _ hfree]

theorem req0_withReq0 (g : BuildRegs) (v : Word) : (g.withReq0 v).req0 = v &&& 0x0013FFFF := by
  simp only [BuildRegs.req0, BuildRegs.withReq0, code_ofCode, putAt_mapCode_ofFlag,
    putAt_fieldAt_eq_and, putBit_bitAt_eq_and, ← BitVec.and_or_distrib_left]
  rfl

theorem req1_withReq1 (g : BuildRegs) (v : Word) : (g.withReq1 v).req1 = v &&& 0x00FFBFFF := by
  simp only [BuildRegs.req1, BuildRegs.withReq1, putAt_fieldAt_eq_and, putBit_bitAt_eq_and,
    ← BitVec.and_or_distrib_left]
  rfl

theorem chan_writeJobCount (s : State) (c : Chan) (v : Word) :
    (s.writePlain (.jobCount c) v).chan c = { s.chan c with jobCount := fieldAt v 0 20 } :=
  s.chan_setChan_same c _

theorem chan_writeJobWidth (s : State) (c : Chan) (v : Word) :
    (s.writePlain (.jobWidth c) v).chan c = { s.chan c with jobWidth := fieldAt v 0 13 } :=
  s.chan_setChan_same c _

/-- A field at the lowest bits is the word's remainder. -/
theorem lowField_toNat (v : Word) (w : Nat) : (fieldAt v 0 w).toNat = v.toNat % 2 ^ w := by
  rw [fieldAt_toNat, Nat.pow_zero, Nat.div_one]

theorem lowField_eq_zero_iff (v : Word) (w : Nat) : fieldAt v 0 w = 0 ↔ v.toNat % 2 ^ w = 0 := by
  rw [← lowField_toNat]
  exact ⟨fun h => by rw [h]; exact BitVec.toNat_zero, fun h => BitVec.eq_of_toNat_eq h⟩

theorem exec_tickDiv_of_zero {s : State} {v : Word} (hfree : s.port.stretched = false)
    (h : fieldAt v 0 16 = 0) : exec (.tickDiv v) s = .next (s.flag .settingRefused) := by
  rw [exec, execTickDiv, onBus_of_free _ hfree, if_pos h]

theorem exec_tickDiv_of_not_zero {s : State} {v : Word} (hfree : s.port.stretched = false)
    (h : fieldAt v 0 16 ≠ 0) :
    exec (.tickDiv v) s = .next { s with timebase := { div := fieldAt v 0 16, count := 0 } } := by
  rw [exec, execTickDiv, onBus_of_free _ hfree, if_neg h]

/-- Settles O11: a write replaces the fields by those of the word, so a read returns the word masked
to the fields' bits. -/
theorem plainRegisterWritesReplaceTheHeldValue :
    Obligations.PlainRegisterWritesReplaceTheHeldValue := by
  unfold Obligations.PlainRegisterWritesReplaceTheHeldValue
  intro v s hfree
  refine ⟨⟨_, exec_registerWrite hfree .bldReq0 v, rfl, congrArg some (req0_withReq0 _ v), rfl⟩,
    ⟨_, exec_registerWrite hfree .bldReq1 v, rfl, congrArg some (req1_withReq1 _ v), rfl⟩,
    fun c => ⟨_, exec_registerWrite hfree (.jobCount c) v, ?_, ?_, ?_⟩,
    fun c => ⟨_, exec_registerWrite hfree (.jobWidth c) v, ?_, ?_, ?_⟩,
    fun hzero => exec_tickDiv_of_zero hfree ((lowField_eq_zero_iff v 16).2 hzero),
    fun hdiv => ⟨_, exec_tickDiv_of_not_zero hfree (mt (lowField_eq_zero_iff v 16).1 hdiv), rfl,
      lowField_toNat v 16, rfl, congrArg some (putAt_fieldAt_eq_and v 0 16)⟩⟩
  · rw [chan_writeJobCount]
    rfl
  · rw [chan_writeJobCount]
    exact lowField_toNat v 20
  · rw [State.registerWord, chan_writeJobCount]
    exact congrArg some (putAt_fieldAt_eq_and v 0 20)
  · rw [chan_writeJobWidth]
    rfl
  · rw [chan_writeJobWidth]
    exact lowField_toNat v 13
  · rw [State.registerWord, chan_writeJobWidth]
    exact congrArg some (putAt_fieldAt_eq_and v 0 13)

/-! ## Events outside their conditions (log 9) -/

theorem stalling_iff (s : State) (c : Chan) : s.stalling c = true ↔
    s.blocked c = true ∧ (s.chan c).ctx.stallLimit ≠ 0 := by
  rw [State.stalling, Bool.and_eq_true, decide_eq_true_eq]

theorem expiring_iff (s : State) (c : Chan) : s.expiring c = true ↔
    s.blocked c = true ∧ (s.chan c).ctx.stallLimit ≠ 0 ∧
      (s.chan c).ctx.stallLimit.toNat ≤ (s.chan c).stall + 1 := by
  rw [State.expiring, Bool.and_eq_true, decide_eq_true_eq, stalling_iff, and_assoc]

theorem coalescing_iff (q : EventQueue) : q.coalescing = true ↔
    q.routine ≠ [] ∧ q.timeout ≠ 0 ∧ q.overdue = false := decide_eq_true_iff

/-- The coalescing timer takes a tick only while it runs, and then compares with the timeout (R173).
-/
theorem eqTick_eq (q : EventQueue) : q.tick =
    if q.routine ≠ [] ∧ q.timeout ≠ 0 ∧ q.overdue = false then
      { q with timer := q.timer + 1, overdue := decide (q.timeout.toNat ≤ q.timer + 1) }
    else q := by
  unfold EventQueue.tick
  simp only [coalescing_iff]

theorem lookForBuild_of_none_startable {s : State}
    (h : ∀ r ∈ s.engine.requests, s.startable r = false) : s.lookForBuild = s := by
  obtain heq | ⟨r, hr, -, hstart, -⟩ := s.lookForBuild_cases
  · exact heq
  · simp [h r hr] at hstart

theorem lookForBuild_of_busy {s : State} (h : s.engine.state ≠ .idle) : s.lookForBuild = s := by
  obtain heq | ⟨r, -, hidle, -⟩ := s.lookForBuild_cases
  · exact heq
  · exact absurd hidle h

theorem exec_insertionEvent_of_none {s : State}
    (h : ∀ p ∈ s.posters, s.eq.hasRoom p.cls = false) : exec .insertionEvent s = .next s := by
  have hnone : s.posters.find? (fun p => s.eq.hasRoom p.cls) = none :=
    List.find?_eq_none.2 fun p hp => by simp [h p hp]
  rw [exec, execInsertionEvent, hnone]

/-- Settles O3: each such command tests its conditions and is else the identity. -/
theorem eventsOutsideTheirConditionsChangeNothing :
    Obligations.EventsOutsideTheirConditionsChangeNothing := by
  unfold Obligations.EventsOutsideTheirConditionsChangeNothing
  intro s
  refine ⟨fun c hc => ?stalled, fun heq => ?overdue, fun hfilling => ?fetch, fun hnone => ?start,
    fun hstate => ?cell, fun c hc => ?attempt, fun c hc => ?pixel,
    fun hengine hslot hchan hbank => ?insertion, fun write width offset hreg => ?invalid,
    fun write r hreg => ?wrong⟩
  case stalled =>
    rw [exec, execStalled, if_neg]
    rw [expiring_iff]
    rintro ⟨hblocked, hlimit, hexpires⟩
    obtain hfree | hzero | hless := hc
    · simp [hblocked] at hfree
    · exact hlimit hzero
    · omega
  case overdue =>
    rw [exec, execOverdue, eqTick_eq, if_neg]
    rintro ⟨hover, hclear⟩
    split at hover
    next hruns =>
      have hdue := of_decide_eq_true hover
      obtain hempty | hoff | hset | hless := heq
      · exact hruns.1 hempty
      · exact hruns.2.1 hoff
      · simp [hclear] at hset
      · omega
    next => simp [hclear] at hover
  case fetch => rw [exec, execFetchCompletion, if_pos hfilling]
  case start =>
    rw [exec, execBuildStart]
    obtain hbusy | hnone := hnone
    · rw [lookForBuild_of_busy hbusy]
    · rw [lookForBuild_of_none_startable fun r hr => ?_]
      rw [← Bool.not_eq_true, startable_iff, not_and_or]
      exact hnone r hr
  case cell =>
    rw [exec, execCellCompletion]
    cases hcase : s.engine.state with
    | idle | post => rfl
    | building => exact absurd hcase hstate
  case attempt => rw [exec, execSegmentStartAttempt, if_neg hc]
  case pixel => rw [exec, execPixelStep, hc]
  case insertion =>
    refine exec_insertionEvent_of_none fun p hp => ?_
    obtain ⟨r, rfl, hpost⟩ | ⟨r, rfl, hslotted⟩ | ⟨c, r, rfl, hpost⟩ | ⟨b, rfl, hdeferred⟩ :=
      mem_posters hp
    · exact hengine r hpost
    · exact hslot r hslotted
    · exact hchan c r hpost
    · exact hbank.resolve_left fun hnot => hnot b hdeferred
  case invalid =>
    have hsame : (if accessReg width offset = none then s.badAccess write else s) = s := if_neg hreg
    rw [exec, execInvalidAccess, onBus, hsame, ite_self]
  case wrong =>
    have hsame : (if (if write then r.writable else r.readable) = false
        then s.badAccess write else s) = s := if_neg (by simp [hreg])
    rw [exec, execWrongTypeAccess, onBus, hsame, ite_self]

end Sys2Proof.Proofs
end

section
/-! PROOFS. Releases and direct writes of a bank (R17, R19, R27), the cells of a build (R100 to
R103), the division of the colour space and of a job (R75, R76, R118), and a job's fault (R125). -/

namespace Sys2Proof.Proofs

open Sys2Proof Sys2Proof.Machine Sys2Proof.Safety

/-! ## The release of a bank (R17, R19) -/

/-- Settles O20: a release is a bank judged with one hold less, so only at holder count 1 does it
reach the commit point. -/
theorem lastReleaseReachesTheCommitPoint : Obligations.LastReleaseReachesTheCommitPoint := by
  unfold Obligations.LastReleaseReachesTheCommitPoint
  intro s u b hu
  have hrelease : s.releaseBank b = u.judgeBank b := by rw [hu]; rfl
  have hcommit : u.commitOf b = s.commitOf b := by rw [hu, State.setBank_commitOf]
  have hrole : u.hasRole b = s.hasRole b := by rw [hu, State.setBank_hasRole]
  have hholders : (u.bank b).holders = (s.bank b).holders - 1 := by
    rw [hu, State.bank_setBank_same]
  refine ⟨fun hwaits => ?_, fun hpending hlast hnone => ?_⟩
  · rw [hrelease, judgeBank_waits]
    rw [hcommit, hrole, hholders]
    exact hwaits.imp_right fun h => h.imp_left fun hmany => by omega
  · have hattempt : s.releaseBank b = u.attemptCommit b := by
      rw [hrelease, judgeBank_attempts (hcommit.trans hpending) (by rw [hholders, hlast])
        (hrole.trans hnone)]
    refine ⟨fun hroom => ?_, fun hasks hfull => ?_⟩
    · rw [hattempt, attemptCommit_commits (by rw [hu]; exact hroom)]
    · rw [hattempt, attemptCommit_defers (by rw [hu]; exact hasks) (by rw [hu]; exact hfull)
        (hrole.trans hnone)]

/-! ## An accepted direct write (R26, R27) -/

theorem exec_apDataWrite_of_accepted {s : State} (hfree : s.port.stretched = false) {b : BankId}
    (htarget : s.port.target = .bank b) (haccepts : s.acceptsWrite b = true) (v : Word) :
    exec (.apDataWrite v) s = .next (((written s b v).notice b).withPort
      ((written s b v).notice b).port.advance).lookForBuild := by
  rw [exec, execApDataWrite, onBus_of_free _ hfree, htarget]
  simp only [haccepts, if_true]
  rfl

theorem ofWord_eq_ofNat (v : Word) : Entry.ofWord v =
    { a := BitVec.ofNat 8 (v.toNat / 2 ^ 24), r := BitVec.ofNat 8 (v.toNat / 2 ^ 16)
      g := BitVec.ofNat 8 (v.toNat / 2 ^ 8), b := BitVec.ofNat 8 v.toNat } := by
  simp only [Entry.ofWord, fieldAt_eq_ofNat, Nat.pow_zero, Nat.div_one]

/-- Settles O24: the write changes one entry and the generation (`written`), the notice tells maps
and port, and the port moves on with no item. -/
theorem acceptedDirectWriteChangesOneEntry : Obligations.AcceptedDirectWriteChangesOneEntry := by
  unfold Obligations.AcceptedDirectWriteChangesOneEntry
  intro v s b hfree htarget hholders hrole hsealed hwf
  have haccepts : s.acceptsWrite b = true := by simp [State.acceptsWrite, hholders, hrole, hsealed]
  refine ⟨_, exec_apDataWrite_of_accepted hfree htarget haccepts v, ?_⟩
  have hbank : (written s b v).bank b = { s.bank b with
      entries := Palette.write (s.bank b).entries s.port.index (Entry.ofWord v)
      generation := (s.bank b).generation + 1 } := State.bank_setBank_same s b _
  have hnoticed (d : BankId) : ((written s b v).notice b).bank d = (written s b v).bank d := by
    rw [State.bank, State.notice_banks]
    rfl
  have hport : ((written s b v).notice b).port = { s.port with items := [], filling := true } := by
    rw [notice_port, portAfterChange]
    exact if_pos htarget
  obtain ⟨hengine, hrequests⟩ := notice_engine (written s b v) b
  refine ⟨fun i => ?_, ?_, ?_, fun d hd => (hnoticed d).trans (written_bank_other v hd),
    notice_map (written s b v) b, hengine, hrequests, ?_, State.notice_uq _ _,
    State.notice_channels _ _, State.notice_scanout _ _, State.notice_eq _ _,
    State.notice_hostFaults _ _, State.notice_enables _ _, State.notice_timebase _ _,
    State.notice_bus _ _, State.notice_pending _ _⟩
  · rw [State.withPort_bank, hnoticed, hbank, ← ofWord_eq_ofNat]
    exact Palette.read_write hwf
  · rw [State.withPort_bank, hnoticed, hbank]
  · rw [State.withPort_bank, hnoticed, hbank]
    exact hholders
  · have hafter : s.port.target.after s.port.index = (s.port.index + 1) % 256 := by
      rw [htarget]
      rfl
    rw [State.withPort_port, hport, ← hafter]
    rfl

/-! ## The cells of a build (R100 to R103) -/

theorem searchCell_isSome {p : MapParams} {bank : List (Nat × Entry)} (i : Nat)
    (h : p.eligible bank ≠ []) : ∃ c, p.searchCell bank i = some c := by
  unfold MapParams.searchCell
  dsimp only
  split
  next hnone => exact absurd ((nearest_eq_none_iff _ _).1 hnone) h
  next best _ => split <;> exact ⟨_, rfl⟩

theorem exec_cellCompletion {s : State} {m : MapId} {c : Cell} (hstate : s.engine.state = .building)
    (hm : s.engine.current = m) (hc : (s.map m).params.searchCell
      (s.bank (s.map m).params.source).entries s.engine.progress = some c) :
    exec .cellCompletion s = if (s.map m).params.cellCount ≤ s.engine.progress + 1
      then .next ((s.writeCell m c).completeBuild m) else .next (s.writeCell m c) := by
  subst hm
  rw [exec, execCellCompletion, hstate]
  simp only [hc]

/-- Settles O29: the search finds a cell while an entry is eligible (`searchCell_isSome`), and finds
what R100 says (`isSearchResult_of_searchCell`). -/
theorem cellCompletionWritesTheSearchResult : Obligations.CellCompletionWritesTheSearchResult := by
  unfold Obligations.CellCompletionWritesTheSearchResult
  intro s m hstate hm hnext heligible
  obtain ⟨c, hc⟩ := searchCell_isSome s.engine.progress heligible
  refine ⟨s.writeCell m c, c, ?_, isSearchResult_of_searchCell hc, ?_⟩
  · rw [exec_cellCompletion hstate hm hc, if_neg (by omega)]
  · rw [writeCell_spec]
    exact ⟨rfl, PerMap.get_set_same _ _ _, fun k hk => PerMap.get_set_other _ _ _ _ hk⟩

/-- The build's last cell is written and the map is READY, with its waiting channels woken; the bank
is held still (R102). -/
def ready (s : State) (m : MapId) (c : Cell) : State :=
  { s with
    maps := s.maps.set m (finishedMap (s.map m) c)
    port := portAfterChange s.port (.map m)
    channels := (s.wakeMap m).channels
    engine := { s.engine with progress := s.engine.progress + 1 } }

theorem completeBuild_eq_ready (s : State) (m : MapId) (c : Cell) :
    (s.writeCell m c).completeBuild m =
      ((ready s m c).releaseBank (s.map m).params.source).enginePosts
        (buildDone m ((s.map m).generation + 1) (s.bank (s.map m).params.source).generation) := by
  have hmap : (s.writeCell m c).map m = { s.map m with cells := (s.map m).cells ++ [c] } := by
    rw [writeCell_spec]
    exact PerMap.get_set_same _ _ _
  have hready : ((s.writeCell m c).setMap m (finishedMap (s.map m) c)).wakeMap m = ready s m c := by
    rw [writeCell_spec]
    simp only [State.setMap, State.wakeMap, PerMap.set_set, ready]
  have hbank : (s.writeCell m c).bank (s.map m).params.source = s.bank (s.map m).params.source := by
    rw [writeCell_spec]
    rfl
  rw [State.completeBuild, hmap]
  dsimp only
  rw [hbank, ← hready]
  rfl

/-- Settles O30: the last cell leaves the map READY (`ready`), then the bank is released and the
engine posts its record. -/
theorem lastCellCompletesTheBuild : Obligations.LastCellCompletesTheBuild := by
  unfold Obligations.LastCellCompletesTheBuild
  intro s m b hstate hm hsource hlast heligible
  rw [← hsource] at heligible ⊢
  obtain ⟨c, hc⟩ := searchCell_isSome s.engine.progress heligible
  refine ⟨ready s m c, c, ?_, isSearchResult_of_searchCell hc, rfl, PerMap.get_set_same _ _ _,
    fun k hk => PerMap.get_set_other _ _ _ _ hk, fun d => s.wakeMap_chan m d⟩
  rw [exec_cellCompletion hstate hm hc, if_pos hlast.ge, completeBuild_eq_ready]
  rfl

/-! ## The colour space (R75, R76) -/

/-- The component values of a bin lie between the two quotients rounded up (Table 5-3). -/
theorem binOf_eq_iff {n : Nat} (hn : 0 < n) (c : Byte) (k : Nat) : binOf n c = k ↔
    (k * 256 + n - 1) / n ≤ c.toNat ∧ c.toNat < ((k + 1) * 256 + n - 1) / n := by
  have hceil (a x : Nat) : (a + n - 1) / n ≤ x ↔ a ≤ n * x := by
    rw [Nat.div_le_iff_le_mul_add_pred hn]
    omega
  have hbound : c.toNat < ((k + 1) * 256 + n - 1) / n ↔ n * c.toNat < (k + 1) * 256 := by
    rw [← Nat.not_le, hceil, Nat.not_le]
  rw [hceil, hbound, binOf, Nat.mul_comm c.toNat n]
  omega

theorem binOf_lt {n : Nat} (hn : 0 < n) (c : Byte) : binOf n c < n := by
  rw [binOf, Nat.div_lt_iff_lt_mul (by norm_num), Nat.mul_comm]
  exact Nat.mul_lt_mul_of_pos_left c.isLt hn

/-- Every bin of an axis of 2 to 8 divisions holds a component. -/
theorem exists_binOf {n k : Nat} (hn : n ≤ 8) (hk : k < n) : ∃ c : Byte, binOf n c = k := by
  have hpos : 0 < n := by omega
  have hlow : k * 256 ≤ n * ((k * 256 + n - 1) / n) := by
    have h := (Nat.div_le_iff_le_mul_add_pred hpos).1 (le_refl ((k * 256 + n - 1) / n))
    omega
  have hhigh : n * ((k * 256 + n - 1) / n) ≤ k * 256 + n - 1 := Nat.mul_div_le _ _
  have hbyte : (k * 256 + n - 1) / n < 256 := by
    rw [Nat.div_lt_iff_lt_mul hpos]
    omega
  refine ⟨BitVec.ofNat 8 ((k * 256 + n - 1) / n), ?_⟩
  rw [binOf, BitVec.toNat_ofNat, Nat.mod_eq_of_lt hbyte, Nat.mul_comm]
  omega

/-- The three digits of a cell number, red lowest. -/
theorem cell_digits {nr ng r g : Nat} (b : Nat) (hr : r < nr) (hg : g < ng) :
    (r + nr * (g + ng * b)) % nr = r ∧ (r + nr * (g + ng * b)) / nr % ng = g ∧
      (r + nr * (g + ng * b)) / (nr * ng) = b := by
  have hrest : (r + nr * (g + ng * b)) / nr = g + ng * b := by
    rw [Nat.add_mul_div_left _ _ (by omega), Nat.div_eq_of_lt hr, Nat.zero_add]
  refine ⟨?_, ?_, ?_⟩
  · rw [Nat.add_mul_mod_self_left, Nat.mod_eq_of_lt hr]
  · rw [hrest, Nat.add_mul_mod_self_left, Nat.mod_eq_of_lt hg]
  · rw [← Nat.div_div_eq_div_mul, hrest, Nat.add_mul_div_left _ _ (by omega), Nat.div_eq_of_lt hg,
      Nat.zero_add]

theorem cell_lt {nr ng nb r g b : Nat} (hr : r < nr) (hg : g < ng) (hb : b < nb) :
    r + nr * (g + ng * b) < nr * ng * nb := by
  have hgb : g + ng * b + 1 ≤ ng * nb := by nlinarith
  calc r + nr * (g + ng * b) < nr * (g + ng * b + 1) := by rw [Nat.mul_succ]; omega
    _ ≤ nr * (ng * nb) := Nat.mul_le_mul_left _ hgb
    _ = nr * ng * nb := (Nat.mul_assoc _ _ _).symm

/-- Settles O32: a cell number has the bins as its digits (`cell_digits`), and each bin holds a
component (`exists_binOf`). -/
theorem cellsDivideTheColourSpace : Obligations.CellsDivideTheColourSpace := by
  unfold Obligations.CellsDivideTheColourSpace
  refine ⟨fun n c k hn _ _ => binOf_eq_iff (by omega) c k, fun p e hvalid => ?_,
    fun p i hvalid hi => ?_⟩
  · obtain ⟨⟨hr, -⟩, ⟨hg, -⟩, hb, -⟩ := dims_of_valid hvalid
    have hr' := binOf_lt (by omega : 0 < p.nr) e.r
    have hg' := binOf_lt (by omega : 0 < p.ng) e.g
    have hb' := binOf_lt (by omega : 0 < p.nb) e.b
    obtain ⟨hred, hgreen, hblue⟩ := cell_digits (binOf p.nb e.b) hr' hg'
    refine ⟨cell_lt hr' hg' hb', ?_⟩
    simp only [MapParams.centre, MapParams.cellOf, hred, hgreen, hblue, binCentre]
  · obtain ⟨⟨hr, hr'⟩, ⟨hg, hg'⟩, hb, hb'⟩ := dims_of_valid hvalid
    have hblue : i / (p.nr * p.ng) < p.nb := Nat.div_lt_of_lt_mul hi
    obtain ⟨r, hbinr⟩ := exists_binOf hr' (Nat.mod_lt i (by omega : 0 < p.nr))
    obtain ⟨g, hbing⟩ := exists_binOf hg' (Nat.mod_lt (i / p.nr) (by omega : 0 < p.ng))
    obtain ⟨b, hbinb⟩ := exists_binOf hb' hblue
    refine ⟨{ a := 0, r := r, g := g, b := b }, ?_⟩
    rw [MapParams.cellOf, hbinr, hbing, hbinb, ← Nat.div_div_eq_div_mul, Nat.mod_add_div,
      Nat.mod_add_div]

/-! ## The segments of a job (R118) -/

section
variable {l n : Nat}

/-- The number of segments is the quotient rounded up. -/
theorem segmentCount_bounds (hl : 1 ≤ l) (hn : l < n) :
    (segmentCount l n - 1) * l < n ∧ n ≤ segmentCount l n * l ∧ 1 ≤ segmentCount l n := by
  rw [segmentCount, if_neg (by omega)]
  have hceil : n ≤ (n + l - 1) / l * l := by
    have h := (Nat.div_le_iff_le_mul_add_pred hl).1 (le_refl ((n + l - 1) / l))
    rw [Nat.mul_comm] at h
    omega
  have hfloor : (n + l - 1) / l * l ≤ n + l - 1 := Nat.div_mul_le_self _ _
  have hone : 1 ≤ (n + l - 1) / l := (Nat.one_le_div_iff hl).2 (by omega)
  refine ⟨?_, hceil, hone⟩
  rw [Nat.sub_one_mul]
  omega

theorem segmentCount_eq (hl : 1 ≤ l) (hn : l < n) :
    segmentCount l n = n / l + (if n % l = 0 then 0 else 1) := by
  rw [segmentCount, if_neg (by omega)]
  have hsplit : n + l - 1 = (n % l + l - 1) + l * (n / l) := by
    have := Nat.mod_add_div n l
    omega
  rw [hsplit, Nat.add_mul_div_left _ _ hl, Nat.add_comm]
  congr 1
  have hmod := Nat.mod_lt n hl
  split
  next hzero => rw [hzero, Nat.zero_add, Nat.div_eq_of_lt (by omega)]
  next hsome => rw [Nat.div_eq_iff hl]; omega

theorem segmentLast_eq (hl : 1 ≤ l) (hn : l < n) (g : Nat) :
    segmentLast l n g = min ((g + 1) * l - 1) (n - 1) := if_neg (by omega)

/-- A pixel at or after a segment's first and at or before its last is of that segment. -/
theorem segment_of_pixel (hl : 1 ≤ l) (hn : l < n) {g k : Nat} (hfirst : g * l ≤ k)
    (hlast : k ≤ segmentLast l n g) : g = k / l := by
  rw [segmentLast_eq hl hn] at hlast
  have hend : k < (g + 1) * l := by
    have : 1 ≤ (g + 1) * l := Nat.mul_pos (Nat.succ_pos g) hl
    omega
  exact (Nat.div_eq_of_lt_le hfirst hend).symm

end

/-- Settles O37: pixel `k` is of segment `k / l` and of no other (`segment_of_pixel`), and the count
is the quotient rounded up (`segmentCount_bounds`). -/
theorem segmentsDivideTheJob : Obligations.SegmentsDivideTheJob := by
  unfold Obligations.SegmentsDivideTheJob
  intro l n hone
  refine ⟨fun hwhole => ⟨if_pos hwhole, if_pos hwhole⟩, fun hl hn => ?_⟩
  obtain ⟨hbelow, habove, hcount⟩ := segmentCount_bounds hl hn
  refine ⟨segmentCount_eq hl hn, fun g hg => ?_, ?_, fun k hk => ?_⟩
  · have hle : (g + 1) * l ≤ (segmentCount l n - 1) * l := Nat.mul_le_mul_right _ (by omega)
    rw [segmentLast_eq hl hn]
    omega
  · rw [segmentLast_eq hl hn, Nat.sub_add_cancel hcount]
    omega
  · have hfloor : k / l * l ≤ k := Nat.div_mul_le_self k l
    have hceil : k < (k / l + 1) * l := by
      rw [Nat.mul_comm]
      exact Nat.lt_mul_div_succ k hl
    refine ⟨k / l, ?_, hfloor, ?_, fun h _ hfirst hlast => segment_of_pixel hl hn hfirst hlast⟩
    · exact Nat.div_lt_of_lt_mul (by rw [Nat.mul_comm]; omega)
    · rw [segmentLast_eq hl hn]
      omega

/-! ## A job's fault (R125) -/

/-- Settles O39: the fault's own values (`Channel.faulted`), and in RUN the holds released. -/
theorem faultEndsTheJob : Obligations.FaultEndsTheJob := by
  unfold Obligations.FaultEndsTheJob
  intro s u c f x hx hu
  have hfaulted : u = s.setChan c (x.faulted c f) := by
    rw [hu]
    cases f <;> rfl
  subst hx
  refine ⟨fun hnot => ?_, fun hrun => ?_⟩
  · obtain ⟨-, h⟩ | ⟨hrun, -⟩ := s.faultJob_cases c f
    · rw [h, hfaulted]
    · exact absurd hrun hnot
  · obtain ⟨hnot, -⟩ | ⟨-, h⟩ := s.faultJob_cases c f
    · exact absurd hrun hnot
    · rw [h, hfaulted]
      exact releaseHolds_eq (s.setChan c ((s.chan c).faulted c f)) (s.chan c).ctx

end Sys2Proof.Proofs
end

section
/-! PROOFS. The access port's reads and fetches (R63, R64, R67), the channels' FIFOs (R127, R131,
R133), the claiming reads (R165, R166), and the insertion arbiter (R163, R169). -/

namespace Sys2Proof.Proofs

open Sys2Proof Sys2Proof.Machine Sys2Proof.Safety

/-! ## The access port (R63, R64, R67) -/

/-- A returned item leaves, and the index moves on (R61, R64). -/
theorem advance_of_items {p : AccessPort} {l : List Word} (h : p.items.tail = l) : p.advance =
    { p with index := (p.index + 1) % p.target.positions, items := l, filling := true } := by
  rw [AccessPort.advance, h]
  rfl

theorem exec_apDataRead_of_item {s : State} (hfree : s.port.stretched = false) {x : Word}
    {rest : List Word} (h : s.port.items = x :: rest) :
    exec .apDataRead s = .next ((s.withPort s.port.advance).returns x) := by
  rw [exec, execApDataRead, onBus_of_free _ hfree, h]

theorem exec_apDataRead_of_empty {s : State} (hfree : s.port.stretched = false)
    (h : s.port.items = []) : exec .apDataRead s =
      .next (s.withPort { s.port with filling := true, stretched := true }) := by
  rw [exec, execApDataRead, onBus_of_free _ hfree, h]

theorem exec_fetchCompletion_of_stretched {s : State} (hfilling : s.port.filling = true)
    (hstretched : s.port.stretched = true) (h : s.port.items = []) :
    exec .fetchCompletion s = .next ((s.withPort { s.port.advance with stretched := false }).returns
      (s.item s.port.target s.port.fetchPosition)) := by
  rw [exec, execFetchCompletion, if_neg (by simp [hfilling]), if_pos ⟨hstretched, h⟩]

theorem exec_fetchCompletion_of_due {s : State} (hfilling : s.port.filling = true)
    (hdue : ¬(s.port.stretched = true ∧ s.port.items = [])) :
    exec .fetchCompletion s = .next (s.withPort { s.port with
      items := s.port.items ++ [s.item s.port.target s.port.fetchPosition]
      filling := decide (s.port.items = []) }) := by
  rw [exec, execFetchCompletion, if_neg (by simp [hfilling]), if_neg hdue]

/-- Settles O26: a read takes the oldest item, and a fetch is for the first position without one. -/
theorem readsAndFetchesMoveThePrefetch : Obligations.ReadsAndFetchesMoveThePrefetch := by
  unfold Obligations.ReadsAndFetchesMoveThePrefetch
  refine ⟨fun s hfree => ⟨fun x rest hitems => ?_, fun hempty => ?_⟩, fun s hfilling =>
    ⟨fun hempty hstretched => ?_, fun hempty hfree => ?_, fun x hone => ?_⟩⟩
  · rw [exec_apDataRead_of_item hfree hitems, advance_of_items (l := rest) (by rw [hitems]; rfl)]
    rfl
  · exact exec_apDataRead_of_empty hfree hempty
  · have hmoved : { s.port.advance with stretched := false } = { s.port with
        index := (s.port.index + 1) % s.port.target.positions, stretched := false } := by
      rw [advance_of_items (l := s.port.items) (by rw [hempty]; rfl), ← hfilling]
    have hposition : s.port.fetchPosition = s.port.index := by rw [AccessPort.fetchPosition, hempty]
    rw [exec_fetchCompletion_of_stretched hfilling hstretched hempty, hmoved, hposition]
    rfl
  · have hitems : s.port.items ++ [s.item s.port.target s.port.fetchPosition] =
        [s.item s.port.target s.port.index] := by rw [AccessPort.fetchPosition, hempty]; rfl
    have hfills : decide (s.port.items = []) = s.port.filling := by simp [hempty, hfilling]
    rw [exec_fetchCompletion_of_due hfilling (by simp [hfree]), hitems, hfills]
    rfl
  · have hitems : s.port.items ++ [s.item s.port.target s.port.fetchPosition] =
        [x, s.item s.port.target ((s.port.index + 1) % s.port.target.positions)] := by
      rw [AccessPort.fetchPosition, hone]
      rfl
    rw [exec_fetchCompletion_of_due hfilling (by simp [hone]), hitems,
      decide_eq_false (by simp [hone])]
    rfl

/-! ## The channels' FIFOs (R127, R131, R133) -/

theorem takesInput_iff (x : Channel) :
    x.takesInput = true ↔ x.state.hasJob = true ∨ x.jobs ≠ [] := by
  rw [Channel.takesInput, Bool.or_eq_true, decide_eq_true_eq]

theorem exec_chIn_of_taken {c : Chan} {v : Word} {s : State} (hfree : s.port.stretched = false)
    (hroom : (s.chan c).inFifo.length < 16) (htakes : (s.chan c).takesInput = true) :
    exec (.chIn c v) s =
      .next (s.setChan c { s.chan c with inFifo := (s.chan c).inFifo ++ [v] }) := by
  rw [exec, execChIn, onBus_of_free _ hfree]
  exact congrArg _ ((if_pos hroom).trans (if_pos htakes))

theorem exec_chIn_of_full {c : Chan} {v : Word} {s : State} (hfree : s.port.stretched = false)
    (hfull : ¬(s.chan c).inFifo.length < 16) (hworks : (s.chan c).state.working = true) :
    exec (.chIn c v) s = .next (s.faultJob c .overrun).lookForBuild := by
  rw [exec, execChIn, onBus_of_free _ hfree]
  exact congrArg _ ((if_neg hfull).trans (if_pos hworks))

theorem exec_chIn_of_dropped {c : Chan} {v : Word} {s : State} (hfree : s.port.stretched = false)
    (h : (s.chan c).inFifo.length < 16 ∧ (s.chan c).takesInput = false ∨
      ¬(s.chan c).inFifo.length < 16 ∧ (s.chan c).state.working = false) :
    exec (.chIn c v) s = .next (s.flag .inputDropped) := by
  rw [exec, execChIn, onBus_of_free _ hfree]
  obtain ⟨hroom, htakes⟩ | ⟨hfull, hworks⟩ := h
  · exact congrArg _ ((if_pos hroom).trans (if_neg (by simp [htakes])))
  · exact congrArg _ ((if_neg hfull).trans (if_neg (by simp [hworks])))

theorem exec_chOut_of_word {c : Chan} {s : State} (hfree : s.port.stretched = false) {w : Word}
    {rest : List Word} (h : (s.chan c).outFifo = w :: rest) :
    exec (.chOut c) s = .next ((s.setChan c { s.chan c with
      outFifo := rest
      stall := if (s.chan c).state = .run then 0 else (s.chan c).stall }).returns w) := by
  rw [exec, execChOut, onBus_of_free _ hfree]
  simp only [h]

theorem exec_chOut_of_empty {c : Chan} {s : State} (hfree : s.port.stretched = false)
    (h : (s.chan c).outFifo = []) :
    exec (.chOut c) s = .next ((s.flag .outputEmpty).returns 0) := by
  rw [exec, execChOut, onBus_of_free _ hfree]
  simp only [h]

/-- Settles O38: the branches of the two accesses, with their conditions as states and lengths. -/
theorem fifosTakeAndGiveWords : Obligations.FifosTakeAndGiveWords := by
  unfold Obligations.FifosTakeAndGiveWords
  refine ⟨fun c v s x hfree hx => ?_, fun c s x hfree hx => ?_⟩
  · subst hx
    refine ⟨fun hroom htakes => exec_chIn_of_taken hfree hroom ((takesInput_iff _).2 htakes),
      fun hfull hworks => exec_chIn_of_full hfree (by omega) ((working_iff _).2 hworks),
      fun h => exec_chIn_of_dropped hfree (h.imp (fun h => ⟨h.1, ?_⟩) fun h => ⟨by omega, ?_⟩)⟩
    · simp [Channel.takesInput, h.2.1, h.2.2]
    · rw [← Bool.not_eq_true, working_iff, not_or, not_exists]
      exact h.2
  · subst hx
    exact ⟨fun w rest hout => exec_chOut_of_word hfree hout,
      fun hout => exec_chOut_of_empty hfree hout⟩

/-! ## Claiming reads (R165, R166) -/

theorem exec_eqHead1 {s : State} (hfree : s.port.stretched = false) :
    exec .eqHead1 s = .next
      ((s.withEq s.eq.claimFront).returns (recordWord1 s.eq.claimFront.claimed)) := by
  rw [exec, execEqHead1, onBus_of_free _ hfree]

theorem claimFront_of_claim {q : EventQueue} {k : EventClass} (h : q.claim = some k) :
    q.claimFront = q ∧ q.claimFront.claimed = (q.ofClass k).head? := by
  have hkept : q.claimFront = q := by rw [EventQueue.claimFront, h]
  rw [hkept, EventQueue.claimed, h]
  exact ⟨rfl, rfl⟩

theorem claimFront_of_front {q : EventQueue} {k : EventClass} (hnone : q.claim = none)
    (hfront : q.front = some k) :
    q.claimFront = { q with claim := some k } ∧ q.claimFront.claimed = (q.ofClass k).head? := by
  have hclaims : q.claimFront = { q with claim := some k } := by
    rw [EventQueue.claimFront, hnone, hfront]
  rw [hclaims]
  exact ⟨rfl, by cases k <;> rfl⟩

theorem claimFront_of_empty {q : EventQueue} (hnone : q.claim = none) (hurgent : q.urgent = [])
    (hroutine : q.routine = []) : q.claimFront = q ∧ q.claimFront.claimed = none := by
  have hkept : q.claimFront = q := by
    have hfront : q.front = none := by simp [EventQueue.front, hurgent, hroutine]
    simp only [EventQueue.claimFront, hnone, hfront]
    rw [← hnone]
  rw [hkept, EventQueue.claimed, hnone]
  exact ⟨rfl, rfl⟩

/-- Both reads leave the queue claimed and return the claimed record's word. -/
theorem exec_eqHeads {s : State} (hfree : s.port.stretched = false) {q : EventQueue}
    {r : Option StampedRecord} (hq : s.eq.claimFront = q) (hr : s.eq.claimFront.claimed = r) :
    exec .eqHead0 s = .next
        { s with eq := q, bus := { s.bus with readData := recordWord0 r } } ∧
      exec .eqHead1 s = .next
        { s with eq := q, bus := { s.bus with readData := recordWord1 r } } := by
  rw [exec_eqHead0 hfree, exec_eqHead1 hfree, hr, hq]
  exact ⟨rfl, rfl⟩

/-- Settles O45: the presented record is the front of its class, URGENT before ROUTINE. -/
theorem headReadsClaimThePresentedRecord : Obligations.HeadReadsClaimThePresentedRecord := by
  unfold Obligations.HeadReadsClaimThePresentedRecord
  intro s hfree
  refine ⟨fun k hclaim => ?_, fun q rest hnone hurgent => ?_,
    fun q rest hnone hurgent hroutine => ?_,
    fun hnone hurgent hroutine => ?_⟩
  · obtain ⟨hkept, hrecord⟩ := claimFront_of_claim hclaim
    exact exec_eqHeads hfree hkept hrecord
  · obtain ⟨hclaims, hrecord⟩ := claimFront_of_front (k := .urgent) hnone
      (by simp [EventQueue.front, hurgent])
    exact exec_eqHeads hfree hclaims (hrecord.trans (by simp [EventQueue.ofClass, hurgent]))
  · obtain ⟨hclaims, hrecord⟩ := claimFront_of_front (k := .routine) hnone
      (by simp [EventQueue.front, hurgent, hroutine])
    exact exec_eqHeads hfree hclaims (hrecord.trans (by simp [EventQueue.ofClass, hroutine]))
  · obtain ⟨hkept, hrecord⟩ := claimFront_of_empty hnone hurgent hroutine
    exact exec_eqHeads hfree hkept hrecord

/-! ## The insertion arbiter (R163, R169) -/

theorem hasRoom_urgent_iff (q : EventQueue) :
    q.hasRoom .urgent = true ↔ q.urgent.length + q.routine.length < 32 := decide_eq_true_iff

theorem hasRoom_routine_iff (q : EventQueue) : q.hasRoom .routine = true ↔
    q.urgent.length + q.routine.length < 32 ∧ q.routine.length < 24 := decide_eq_true_iff

theorem insert_urgent {r : EventRecord} (h : r.cls = .urgent) (q : EventQueue) : q.insert r =
    { q with urgent := q.urgent ++ [{ record := r, stamp := q.stamp }], stamp := q.stamp + 1 } := by
  rw [EventQueue.insert, h]

theorem insert_routine {r : EventRecord} (h : r.cls = .routine) (q : EventQueue) : q.insert r =
    { q with
      routine := q.routine ++ [{ record := r, stamp := q.stamp }], stamp := q.stamp + 1
      timer := if q.routine = [] then 0 else q.timer } := by
  rw [EventQueue.insert, h]

/-- The first poster of the list whose record's class fits. -/
def firstFitting (s : State) (l : List Poster) : Option Poster :=
  l.find? fun p => s.eq.hasRoom p.cls

theorem exec_insertionEvent_of_first {s : State} {p : Poster}
    (h : firstFitting s s.posters = some p) : exec .insertionEvent s = .next (s.serve p) := by
  unfold firstFitting at h
  rw [exec, execInsertionEvent, h]

theorem firstFitting_none {s : State} {l : List Poster} (h : ∀ p ∈ l, s.eq.hasRoom p.cls = false) :
    firstFitting s l = none := List.find?_eq_none.2 fun p hp => by simp [h p hp]

theorem firstFitting_append_of_none {s : State} {l k : List Poster} (h : firstFitting s l = none) :
    firstFitting s (l ++ k) = firstFitting s k := by
  unfold firstFitting at h ⊢
  rw [List.find?_append, h, Option.none_or]

theorem firstFitting_append_of_some {s : State} {l k : List Poster} {p : Poster}
    (h : firstFitting s l = some p) : firstFitting s (l ++ k) = some p := by
  unfold firstFitting at h ⊢
  rw [List.find?_append, h, Option.some_or]

theorem firstFitting_single {s : State} {p : Poster} (h : s.eq.hasRoom p.cls = true) :
    firstFitting s [p] = some p := by
  simp [firstFitting, h]

section
variable {s : State}

theorem enginePoster_of_post {r : EventRecord} (h : s.engine.state = .post r) :
    s.enginePoster = [.enginePost r] := by rw [State.enginePoster, h]

theorem slotPoster_of_some {r : EventRecord} (h : s.engine.abortSlot = some r) :
    s.slotPoster = [.abortSlot r] := by rw [State.slotPoster, h]

theorem chanPoster_of_post {c : Chan} {r : EventRecord} (h : (s.chan c).state = .post r) :
    s.chanPoster c = [.channel c r] := by rw [State.chanPoster, h]

theorem bankPoster_of_deferred {b : BankId} (h : s.commitOf b = .deferred) :
    s.bankPoster b = [.deferred b] := if_pos h

theorem engine_unfit (h : ∀ r, s.engine.state = .post r → s.eq.hasRoom r.cls = false) :
    firstFitting s s.enginePoster = none := by
  refine firstFitting_none fun p hp => ?_
  unfold State.enginePoster at hp
  split at hp
  next r hpost =>
    rw [List.mem_singleton.1 hp]
    exact h r hpost
  all_goals exact absurd hp List.not_mem_nil

theorem slot_unfit (h : ∀ r, s.engine.abortSlot = some r → s.eq.hasRoom r.cls = false) :
    firstFitting s s.slotPoster = none := by
  refine firstFitting_none fun p hp => ?_
  unfold State.slotPoster at hp
  split at hp
  next r hslot =>
    rw [List.mem_singleton.1 hp]
    exact h r hslot
  all_goals exact absurd hp List.not_mem_nil

theorem chans_unfit {l : List Chan}
    (h : ∀ d ∈ l, ∀ q, (s.chan d).state = .post q → s.eq.hasRoom q.cls = false) :
    firstFitting s (l.flatMap s.chanPoster) = none := by
  refine firstFitting_none fun p hp => ?_
  obtain ⟨d, hd, hp⟩ := List.mem_flatMap.1 hp
  unfold State.chanPoster at hp
  split at hp
  next r hpost =>
    rw [List.mem_singleton.1 hp]
    exact h d hd r hpost
  all_goals exact absurd hp List.not_mem_nil

theorem banks_absent {l : List BankId} (h : ∀ d ∈ l, s.commitOf d ≠ .deferred) :
    firstFitting s (l.flatMap s.bankPoster) = none := by
  refine firstFitting_none fun p hp => ?_
  obtain ⟨d, hd, hp⟩ := List.mem_flatMap.1 hp
  unfold State.bankPoster at hp
  rw [if_neg (h d hd)] at hp
  exact absurd hp List.not_mem_nil

/-- The engine's record is the first to fit. -/
theorem first_engine {r : EventRecord} (hpost : s.engine.state = .post r)
    (hroom : s.eq.hasRoom r.cls = true) : firstFitting s s.posters = some (.enginePost r) := by
  unfold State.posters
  rw [enginePoster_of_post hpost, List.append_assoc, List.append_assoc]
  exact firstFitting_append_of_some (firstFitting_single hroom)

theorem first_slot (hengine : ∀ r, s.engine.state = .post r → s.eq.hasRoom r.cls = false)
    {r : EventRecord} (hslot : s.engine.abortSlot = some r) (hroom : s.eq.hasRoom r.cls = true) :
    firstFitting s s.posters = some (.abortSlot r) := by
  unfold State.posters
  rw [List.append_assoc, List.append_assoc, firstFitting_append_of_none (engine_unfit hengine),
    slotPoster_of_some hslot]
  exact firstFitting_append_of_some (firstFitting_single hroom)

theorem first_channel (hengine : ∀ r, s.engine.state = .post r → s.eq.hasRoom r.cls = false)
    (hslot : ∀ r, s.engine.abortSlot = some r → s.eq.hasRoom r.cls = false) {c : Chan}
    {before after : List Chan} {r : EventRecord}
    (hrotation : rotation s.eq.lastServed = before ++ c :: after)
    (hbefore : ∀ d ∈ before, ∀ q, (s.chan d).state = .post q → s.eq.hasRoom q.cls = false)
    (hpost : (s.chan c).state = .post r) (hroom : s.eq.hasRoom r.cls = true) :
    firstFitting s s.posters = some (.channel c r) := by
  unfold State.posters
  rw [List.append_assoc, List.append_assoc, firstFitting_append_of_none (engine_unfit hengine),
    firstFitting_append_of_none (slot_unfit hslot), hrotation, List.flatMap_append,
    List.append_assoc, firstFitting_append_of_none (chans_unfit hbefore), List.flatMap_cons,
    chanPoster_of_post hpost, List.append_assoc]
  exact firstFitting_append_of_some (firstFitting_single hroom)

theorem first_bank (hengine : ∀ r, s.engine.state = .post r → s.eq.hasRoom r.cls = false)
    (hslot : ∀ r, s.engine.abortSlot = some r → s.eq.hasRoom r.cls = false)
    (hchans : ∀ c r, (s.chan c).state = .post r → s.eq.hasRoom r.cls = false) {b : BankId}
    {before after : List BankId} (hbanks : [BankId.b0, .b1, .b2, .b3] = before ++ b :: after)
    (hbefore : ∀ d ∈ before, s.commitOf d ≠ .deferred) (hdeferred : s.commitOf b = .deferred)
    (hroom : s.eq.hasRoom .routine = true) : firstFitting s s.posters = some (.deferred b) := by
  unfold State.posters
  rw [List.append_assoc, List.append_assoc, firstFitting_append_of_none (engine_unfit hengine),
    firstFitting_append_of_none (slot_unfit hslot),
    firstFitting_append_of_none (chans_unfit fun d _ => hchans d), hbanks, List.flatMap_append,
    firstFitting_append_of_none (banks_absent hbefore), List.flatMap_cons,
    bankPoster_of_deferred hdeferred]
  exact firstFitting_append_of_some (firstFitting_single hroom)

end

/-- What the insertion of a channel's record makes of the channel, by the record's kind (R123). -/
theorem posted_by_kind (x : Channel) (r : EventRecord) :
    (r.kind = .segment → x.posted r =
      { x with state := .wait .start, segment := x.segment + 1 }) ∧
    (r.kind = .jobFault → x.posted r = { x with jobs := x.jobs.drop 1, state := .halted }) ∧
    (r.kind = .jobDone → x.posted r = Channel.nextJob { x with jobs := x.jobs.drop 1 }) := by
  rw [List.drop_one]
  refine ⟨fun h => ?_, fun h => ?_, fun h => ?_⟩ <;> rw [Channel.posted, h]

/-- Settles O48: the posters stand in the order of R169, so the first that fits is the one before
which none fits (`first_engine`, `first_slot`, `first_channel`, `first_bank`). -/
theorem insertionServesTheFirstFittingPoster :
    Obligations.InsertionServesTheFirstFittingPoster := by
  unfold Obligations.InsertionServesTheFirstFittingPoster
  refine ⟨⟨rfl, rfl, rfl⟩, fun q r => ⟨fun h => insert_urgent h q, fun h => insert_routine h q,
    hasRoom_urgent_iff q, hasRoom_routine_iff q⟩, fun s => ⟨fun r hpost hroom => ?_,
    fun hengine => ⟨fun r hslot hroom => ?_, fun hslot => ⟨?_, ?_⟩⟩⟩⟩
  · exact exec_insertionEvent_of_first (first_engine hpost hroom)
  · exact exec_insertionEvent_of_first (first_slot hengine hslot hroom)
  · intro c r before after hrotation hbefore hpost hroom
    obtain ⟨hsegment, hfault, hdone⟩ := posted_by_kind (s.chan c) r
    refine ⟨(s.chan c).posted r, exec_insertionEvent_of_first
      (first_channel hengine hslot hrotation hbefore hpost hroom), hsegment, hfault,
      fun hkind => ⟨fun hnil => ?_, fun j rest hjobs => ?_⟩⟩
    · rw [hdone hkind, hnil]
      exact nextJob_of_nil rfl
    · rw [hdone hkind, hjobs]
      exact nextJob_of_cons rfl
  · intro hchans b before after hbanks hbefore hdeferred hroom
    exact exec_insertionEvent_of_first
      (first_bank hengine hslot hchans hbanks hbefore hdeferred hroom)

end Sys2Proof.Proofs
end

section
/-! PROOFS. The frame start: the commits attempted in their order (R50, R51, R54, R57, R158). -/

namespace Sys2Proof.Proofs

open Sys2Proof Sys2Proof.Machine Sys2Proof.Safety

/-! ## An attempted commit -/

/-- What an attempt leaves: nothing of it without a pending set or with a hold; the wait for room;
or the commit (R54). -/
theorem commitAttempt_cases (s : State) (b : BankId) (display : Bool) :
    (¬(s.commitOf b = .pending ∧ (s.bank b).holders = 0) ∧ commitAttempt s b display = s) ∨
    ((s.commitOf b = .pending ∧ (s.bank b).holders = 0) ∧
      (s.uq.asksNotice b = true ∧ s.eq.hasRoom .routine = false) ∧
      commitAttempt s b display = s.setCommit b (if display then .pending else .deferred)) ∨
    ((s.commitOf b = .pending ∧ (s.bank b).holders = 0) ∧
      ¬(s.uq.asksNotice b = true ∧ s.eq.hasRoom .routine = false) ∧
      commitAttempt s b display = s.commit b) := by
  by_cases hpoint : s.commitOf b = .pending ∧ (s.bank b).holders = 0
  · by_cases hfull : s.uq.asksNotice b = true ∧ s.eq.hasRoom .routine = false
    · exact .inr (.inl ⟨hpoint, hfull, (if_pos hpoint).trans (if_pos hfull)⟩)
    · exact .inr (.inr ⟨hpoint, hfull, (if_pos hpoint).trans (if_neg hfull)⟩)
  · exact .inl ⟨hpoint, if_neg hpoint⟩

section
variable (s : State) (b : BankId)

theorem attemptCommit_eq {display : Bool} (h : s.hasRole b = display) : s.attemptCommit b =
    if s.uq.asksNotice b = true ∧ s.eq.hasRoom .routine = false then
      s.setCommit b (if display then .pending else .deferred)
    else s.commit b := by
  unfold State.attemptCommit
  rw [h]
  simp only [Bool.and_eq_true, Bool.not_eq_true']

theorem judgeDisplay_eq_attempt (h : s.hasRole b = true) :
    s.judgeDisplay b = commitAttempt s b true := by
  rw [State.judgeDisplay, attemptCommit_eq s b h, commitAttempt]

theorem judgeBank_eq_attempt (h : s.hasRole b = false) :
    s.judgeBank b = commitAttempt s b false := by
  rw [State.judgeBank, attemptCommit_eq s b h, commitAttempt]
  simp only [h, and_true]

theorem commitAttempt_scanout (display : Bool) :
    (commitAttempt s b display).scanout = s.scanout := by
  obtain ⟨-, h⟩ | ⟨-, -, h⟩ | ⟨-, -, h⟩ := commitAttempt_cases s b display
  · rw [h]
  · rw [h]
    rfl
  · rw [h, State.commit_scanout]

theorem commitAttempt_bank_other (display : Bool) {d : BankId} (hd : d ≠ b) :
    (commitAttempt s b display).bank d = s.bank d := by
  obtain ⟨-, h⟩ | ⟨-, -, h⟩ | ⟨-, -, h⟩ := commitAttempt_cases s b display
  · rw [h]
  · rw [h]
    rfl
  · rw [h, commit_bank_other hd]

theorem commitAttempt_commitOf_other (display : Bool) {d : BankId} (hd : d ≠ b) :
    (commitAttempt s b display).commitOf d = s.commitOf d := by
  obtain ⟨-, h⟩ | ⟨-, -, h⟩ | ⟨-, -, h⟩ := commitAttempt_cases s b display
  · rw [h]
  · rw [h, State.commitOf_setCommit, if_neg hd]
  · rw [h, commit_commitOf, if_neg hd]

/-- A commit leaves the pending sets of the other banks. -/
theorem pendingSet_commit_other {d : BankId} (hd : d ≠ b) :
    (s.commit b).uq.pendingSet d = s.uq.pendingSet d := by
  rw [commit_uq]
  simp only [UpdateQueue.pendingSet, List.filter_filter]
  refine List.filter_congr fun r _ => ?_
  cases hfor : r.sealedFor d with
  | false => rfl
  | true =>
    have hne : r.bank ≠ b := fun heq => hd (((sealedFor_iff r d).1 hfor).1.symm.trans heq)
    simp [hne]

theorem commitAttempt_pendingSet_other (display : Bool) {d : BankId} (hd : d ≠ b) :
    (commitAttempt s b display).uq.pendingSet d = s.uq.pendingSet d := by
  obtain ⟨-, h⟩ | ⟨-, -, h⟩ | ⟨-, -, h⟩ := commitAttempt_cases s b display
  · rw [h]
  · rw [h]
    rfl
  · rw [h, pendingSet_commit_other s b hd]

end

/-! ## The engine's look leaves the banks' contents, the update queue and the event queue -/

theorem lookForBuild_frame (s : State) (b : BankId) : SameBank s s.lookForBuild b ∧
    s.lookForBuild.uq = s.uq ∧ s.lookForBuild.eq = s.eq := by
  obtain h | ⟨r, -, -, hstart, h⟩ := s.lookForBuild_cases
  · rw [h]
    exact ⟨SameBank.refl s b, rfl, rfl⟩
  · rw [h, startBuild_eq]
    split
    · rw [noCandidates_enterBuilding ((startable_iff s r).1 hstart).2]
      exact ⟨⟨rfl, rfl⟩, rfl, rfl⟩
    · refine ⟨?_, State.enterBuilding_uq _ _, State.enterBuilding_eq s r⟩
      rw [SameBank, enterBuilding_bank]
      exact ⟨rfl, rfl⟩

theorem lookForBuild_commitOf (s : State) (b : BankId) :
    s.lookForBuild.commitOf b = s.commitOf b := by
  rw [State.commitOf, (lookForBuild_frame s b).2.1, State.commitOf]

/-! ## The frame start (R158) -/

/-- The state before the commits of a frame start that gives the role to the next display bank. -/
def shown (s : State) : State :=
  { s with
    scanout := { state := .on, current := s.scanout.next, next := s.scanout.next
                 frame := s.scanout.frame + 1 }
    uq := { s.uq with commit := if s.commitOf s.scanout.next = .deferred
      then s.uq.commit.set s.scanout.next .pending else s.uq.commit } }

theorem shown_eq (s : State) : s.countFrame.showNext = shown s := by
  rw [showNext_spec]
  rfl

theorem shown_commitOf_next (s : State) : (shown s).commitOf s.scanout.next =
    if s.commitOf s.scanout.next = .deferred then .pending else s.commitOf s.scanout.next := by
  unfold shown State.commitOf
  dsimp only
  split
  · rw [PerBank.get_set_same]
  · rfl

theorem shown_commitOf_other {s : State} {b : BankId} (hb : b ≠ s.scanout.next) :
    (shown s).commitOf b = s.commitOf b := by
  unfold shown State.commitOf
  dsimp only
  split
  · rw [PerBank.get_set_other _ _ _ _ hb]
  · rfl

theorem shown_hasRole (s : State) (b : BankId) :
    (shown s).hasRole b = decide (s.scanout.next = b) := by
  simp [shown, State.hasRole]

theorem exec_frameStart_of_off {s : State} (h : s.scanout.state = .off) :
    exec .frameStart s = .next s.countFrame := by
  rw [exec, execFrameStart, h]

theorem exec_frameStart_of_armed {s : State} (h : s.scanout.state = .armed) :
    exec .frameStart s =
      .next (commitAttempt (shown s) s.scanout.next true).lookForBuild := by
  rw [exec, execFrameStart, h]
  dsimp only
  rw [shown_eq, judgeDisplay_eq_attempt _ _ (by rw [shown_hasRole, decide_eq_true rfl])]

theorem exec_frameStart_of_same {s : State} (h : s.scanout.state = .on)
    (hsame : s.scanout.next = s.scanout.current) : exec .frameStart s =
      .next (commitAttempt s.countFrame s.scanout.current true).lookForBuild := by
  have hrole : s.countFrame.hasRole s.scanout.current = true :=
    (hasRole_iff s.countFrame _).2 ⟨h, rfl⟩
  rw [exec, execFrameStart, h]
  dsimp only
  rw [if_pos hsame, judgeDisplay_eq_attempt _ _ hrole]

theorem exec_frameStart_of_switch {s : State} (h : s.scanout.state = .on)
    (hswitch : s.scanout.next ≠ s.scanout.current) : exec .frameStart s =
      .next (commitAttempt (commitAttempt (shown s) s.scanout.current false)
        s.scanout.next true).lookForBuild := by
  have hold : (shown s).hasRole s.scanout.current = false := by
    rw [shown_hasRole, decide_eq_false hswitch]
  have hnew : (commitAttempt (shown s) s.scanout.current false).hasRole s.scanout.next = true := by
    rw [hasRole_of_scanout (commitAttempt_scanout _ _ _), shown_hasRole, decide_eq_true rfl]
  rw [exec, execFrameStart, h]
  dsimp only
  rw [if_neg hswitch, shown_eq, judgeBank_eq_attempt _ _ hold, judgeDisplay_eq_attempt _ _ hnew]

/-- What precedes the display bank's attempt at a frame start out of OFF: the role is settled, the
banks but the display bank and an outgoing one are as before, and the display bank is PENDING if it
was DEFERRED. -/
structure BeforeDisplay (s u : State) : Prop where
  scanout : u.scanout.state = .on ∧ u.scanout.current = s.scanout.next
  others : ∀ b, b ≠ s.scanout.next → (s.scanout.state = .armed ∨ b ≠ s.scanout.current) →
    u.bank b = s.bank b ∧ u.commitOf b = s.commitOf b
  bank : u.bank s.scanout.next = s.bank s.scanout.next
  none : s.commitOf s.scanout.next = .none → u.commitOf s.scanout.next = .none
  pending : CommitsAgree s → s.commitOf s.scanout.next ≠ .none →
    u.commitOf s.scanout.next = .pending
  set : u.uq.pendingSet s.scanout.next = s.uq.pendingSet s.scanout.next

theorem beforeDisplay_shown {s : State} : BeforeDisplay s (shown s) where
  scanout := ⟨rfl, rfl⟩
  others b hb _ := ⟨rfl, shown_commitOf_other hb⟩
  bank := rfl
  none h := by rw [shown_commitOf_next, if_neg (by simp [h]), h]
  pending _ h := by
    rw [shown_commitOf_next]
    cases hcase : s.commitOf s.scanout.next <;> simp_all
  set := rfl

theorem beforeDisplay_switch {s : State} (hswitch : s.scanout.next ≠ s.scanout.current)
    (hstate : s.scanout.state = .on) :
    BeforeDisplay s (commitAttempt (shown s) s.scanout.current false) where
  scanout := by
    rw [commitAttempt_scanout]
    exact ⟨rfl, rfl⟩
  others b hb hout := by
    have hne : b ≠ s.scanout.current := hout.resolve_left (by simp [hstate])
    rw [commitAttempt_bank_other _ _ _ hne, commitAttempt_commitOf_other _ _ _ hne]
    exact ⟨rfl, shown_commitOf_other hb⟩
  bank := commitAttempt_bank_other _ _ _ hswitch
  none h := (commitAttempt_commitOf_other _ _ _ hswitch).trans (beforeDisplay_shown.none h)
  pending hs h := (commitAttempt_commitOf_other _ _ _ hswitch).trans
    (beforeDisplay_shown.pending hs h)
  set := commitAttempt_pendingSet_other _ _ _ hswitch

theorem beforeDisplay_same {s : State} (hstate : s.scanout.state = .on)
    (hsame : s.scanout.next = s.scanout.current) : BeforeDisplay s s.countFrame where
  scanout := ⟨hstate, hsame.symm⟩
  others _ _ _ := ⟨rfl, rfl⟩
  bank := rfl
  none h := h
  pending hs h := by
    change s.commitOf s.scanout.next = .pending
    have hrole : s.hasRole s.scanout.next = true := (hasRole_iff s _).2 ⟨hstate, hsame.symm⟩
    cases hcase : s.commitOf s.scanout.next with
    | none => exact absurd hcase h
    | pending => rfl
    | deferred => simp [((hs _).2 hcase).2] at hrole
  set := rfl

/-- A frame start out of OFF ends in the display bank's attempt and the engine's look. -/
theorem exec_frameStart_of_not_off {s t : State} (h : exec .frameStart s = .next t)
    (hstate : s.scanout.state ≠ .off) : ∃ u, BeforeDisplay s u ∧
      t = (commitAttempt u s.scanout.next true).lookForBuild := by
  cases hcase : s.scanout.state with
  | off => exact absurd hcase hstate
  | armed =>
    rw [exec_frameStart_of_armed hcase] at h
    exact ⟨_, beforeDisplay_shown, eq_of_next h⟩
  | on =>
    by_cases hsame : s.scanout.next = s.scanout.current
    · rw [exec_frameStart_of_same hcase hsame] at h
      exact ⟨_, beforeDisplay_same hcase hsame, by rw [hsame]; exact eq_of_next h⟩
    · rw [exec_frameStart_of_switch hcase hsame] at h
      exact ⟨_, beforeDisplay_switch hsame hcase, eq_of_next h⟩

/-- Settles O14: the role is settled before the display bank's commit is attempted
(`BeforeDisplay`), and an attempt touches its own bank alone. -/
theorem frameStartSettlesTheDisplayRole : Obligations.FrameStartSettlesTheDisplayRole := by
  unfold Obligations.FrameStartSettlesTheDisplayRole
  refine ⟨fun s u v hu hv => ?_, fun s t h hstate => ?_⟩
  · subst hu hv
    exact ⟨exec_frameStart_of_off, exec_frameStart_of_armed, exec_frameStart_of_same,
      exec_frameStart_of_switch⟩
  obtain ⟨u, hu, rfl⟩ := exec_frameStart_of_not_off h hstate
  have hlook (b : BankId) := (lookForBuild_frame (commitAttempt u s.scanout.next true) b).1
  have hscanout := commitAttempt_scanout u s.scanout.next true
  refine ⟨?_, ?_, fun b hb hout => ?_, fun hwaits => ?_, fun hs hsealed hfree hquiet => ?_⟩
  · rw [State.lookForBuild_scanout, hscanout]
    exact hu.scanout.1
  · rw [State.lookForBuild_scanout, hscanout]
    exact hu.scanout.2
  · obtain ⟨hbank, hcommit⟩ := hu.others b hb hout
    obtain ⟨hentries, hgen⟩ := hlook b
    rw [hentries, hgen, lookForBuild_commitOf, commitAttempt_bank_other _ _ _ hb,
      commitAttempt_commitOf_other _ _ _ hb, hbank, hcommit]
    exact ⟨rfl, rfl, rfl⟩
  · obtain ⟨-, hkept⟩ | ⟨hpoint, -⟩ | ⟨hpoint, -⟩ := commitAttempt_cases u s.scanout.next true
    · obtain ⟨hentries, hgen⟩ := hlook s.scanout.next
      rw [hentries, hgen, hkept, hu.bank]
      exact ⟨rfl, rfl⟩
    all_goals
      obtain hnone | hheld := hwaits
      · simp [hu.none hnone] at hpoint
      · exact absurd (hu.bank ▸ hpoint.2) hheld
  · have hpoint : u.commitOf s.scanout.next = .pending ∧ (u.bank s.scanout.next).holders = 0 :=
      ⟨hu.pending hs hsealed, by rw [hu.bank, hfree]⟩
    have hquiet' : u.uq.asksNotice s.scanout.next = false := by
      rw [UpdateQueue.asksNotice, hu.set]
      exact hquiet
    obtain ⟨hnot, -⟩ | ⟨-, ⟨hasks, -⟩, -⟩ | ⟨-, -, hcommit⟩ :=
      commitAttempt_cases u s.scanout.next true
    · exact absurd hpoint hnot
    · simp [hquiet'] at hasks
    · obtain ⟨hentries, hgen⟩ := hlook s.scanout.next
      rw [hentries, hgen, lookForBuild_commitOf, hcommit, commit_bank, if_pos rfl, commit_commitOf,
        if_pos rfl, hu.set, hu.bank]
      exact ⟨rfl, rfl, rfl⟩

/-! ## Two commits and one place (R57) -/

/-- A ROUTINE record that takes the last place leaves no room for another. -/
theorem hasRoom_insert_last {q : EventQueue} {r : EventRecord} (hcls : r.cls = .routine)
    (hlast : q.urgent.length + q.routine.length = 31 ∨ q.routine.length = 23) :
    (q.insert r).hasRoom .routine = false := by
  rw [insert_routine hcls, ← Bool.not_eq_true, hasRoom_routine_iff]
  dsimp only
  rw [List.length_append, List.length_singleton]
  omega

/-- Settles O15: the outgoing bank's attempt comes first and takes the place, so the incoming bank's
finds none. -/
theorem outgoingBankCommitsBeforeTheIncoming :
    Obligations.OutgoingBankCommitsBeforeTheIncoming := by
  unfold Obligations.OutgoingBankCommitsBeforeTheIncoming
  intro s hs hstate hswitch hpending hholders hasks hsealed hfree hasks' hroom hlast
  refine ⟨_, exec_frameStart_of_switch hstate hswitch, ?_⟩
  have hne := Ne.symm hswitch
  have hout :
    commitAttempt (shown s) s.scanout.current false = (shown s).commit s.scanout.current := by
    have hpoint : (shown s).commitOf s.scanout.current = .pending :=
      (shown_commitOf_other hne).trans hpending
    obtain ⟨hnot, -⟩ | ⟨-, ⟨-, hfull⟩, -⟩ | ⟨-, -, h⟩ :=
      commitAttempt_cases (shown s) s.scanout.current false
    · exact absurd ⟨hpoint, hholders⟩ hnot
    · exact absurd (hfull.symm.trans hroom) (by decide)
    · exact h
  have hbefore := beforeDisplay_switch hswitch hstate
  rw [hout] at hbefore ⊢
  have hrecord : ((shown s).commit s.scanout.current).eq =
      s.eq.insert (commitRecordOf s.scanout.current
        ((s.bank s.scanout.current).generation + 1) (s.scanout.frame + 1)) := by
    rw [commit_eventQueue]
    exact if_pos hasks
  generalize hu : (shown s).commit s.scanout.current = u at hbefore hrecord ⊢
  have hin : commitAttempt u s.scanout.next true = u.setCommit s.scanout.next .pending := by
    have hasksNext : u.uq.asksNotice s.scanout.next = true := by
      rw [UpdateQueue.asksNotice, hbefore.set]
      exact hasks'
    have hfull : u.eq.hasRoom .routine = false := by
      rw [hrecord]
      exact hasRoom_insert_last rfl hlast
    obtain ⟨hnot, -⟩ | ⟨-, -, h⟩ | ⟨-, hnot, -⟩ := commitAttempt_cases u s.scanout.next true
    · exact absurd ⟨hbefore.pending hs hsealed, by rw [hbefore.bank, hfree]⟩ hnot
    · exact h
    · exact absurd ⟨hasksNext, hfull⟩ hnot
  rw [hin]
  obtain ⟨⟨-, hgenOut⟩, -, hqueue⟩ :=
    lookForBuild_frame (u.setCommit s.scanout.next .pending) s.scanout.current
  obtain ⟨⟨hentries, hgen⟩, -⟩ :=
    lookForBuild_frame (u.setCommit s.scanout.next .pending) s.scanout.next
  have hbank : u.bank s.scanout.current = ((shown s).commit s.scanout.current).bank
      s.scanout.current := by rw [hu]
  refine ⟨?_, ?_, ?_, ?_, ?_, ?_, ?_⟩
  · rw [lookForBuild_commitOf, State.commitOf_setCommit, if_neg hne, ← hu, commit_commitOf,
      if_pos rfl]
  · rw [hgenOut, State.setCommit_bank, hbank, commit_bank, if_pos rfl]
    rfl
  · rw [lookForBuild_commitOf, State.commitOf_setCommit_same]
  · rw [hentries, State.setCommit_bank, hbefore.bank]
  · rw [hgen, State.setCommit_bank, hbefore.bank]
  · rw [hqueue, State.setCommit_eq, hrecord, insert_routine rfl]
  · rw [hqueue, State.setCommit_eq, hrecord, insert_routine rfl]

end Sys2Proof.Proofs
end

section
/-! PROOFS. The ticks (R182, R126, R173): whether a channel is blocked depends on that channel
alone, and what the ticks at the stall timers leave of each channel. -/

namespace Sys2Proof.Proofs

open Sys2Proof Sys2Proof.Machine Sys2Proof.Safety

/-! ## The words a pixel step hands over depend on pixel numbers alone -/

/-- Pixel `k`'s lane, or the job's end, completes a word (R151). -/
def completesWord (f : Format) (n k : Nat) : Bool :=
  decide (f.laneOf k + 1 = f.perWord ∨ k + 1 = n)

theorem place_out_length (q : Packing) (f : Format) (n k : Nat) (v : Word) :
    (q.place f n k v).out.length = q.out.length + (completesWord f n k).toNat := by
  unfold Packing.place completesWord
  by_cases h : f.laneOf k + 1 = f.perWord ∨ k + 1 = n <;> simp [h]

theorem pack_out_length (x : Context) (m : ReductionMap) (job : Job) (ps : List Released) :
    ∀ q, (x.pack m job ps q).out.length = q.out.length +
      ((ps.map (·.number)).map fun k => (completesWord x.dst job.count k).toNat).sum := by
  induction ps with
  | nil => exact fun q => rfl
  | cons p ps ih =>
    intro q
    have hstep : x.pack m job (p :: ps) q =
        x.pack m job ps (q.place x.dst job.count p.number (x.convert m job.width p)) := rfl
    rw [hstep, ih, place_out_length]
    simp only [List.map_cons, List.sum_cons]
    omega

/-- The numbers of the pixels that the edge step releases (R145, R146). -/
def releasedNumbers (x : Context) (w n k : Nat) (held : Option HeldPixel) : List Nat :=
  if x.edgeEn then
    (held.map (·.number)).toList ++ if endsRow w n k then [k] else []
  else [k]

theorem edge_released_numbers (x : Context) (w n k : Nat) (e : Entry) (held : Option HeldPixel) :
    (x.edge w n k e held).1.map (·.number) = releasedNumbers x w n k held := by
  unfold Context.edge releasedNumbers
  split
  · cases held <;> cases endsRow w n k <;> rfl
  · rfl

/-- The number of words that the channel's next pixel step hands over. -/
def wordsHanded (x : Channel) (job : Job) : Nat :=
  ((releasedNumbers x.ctx job.width job.count x.path.next x.path.held).map fun k =>
    (completesWord x.ctx.dst job.count k).toNat).sum

theorem resultOf_out_length (x : Channel) (job : Job) (bank : List (Nat × Entry)) (m : ReductionMap)
    (w : Word) (rest : List Word) :
    (resultOf x job bank m w rest).out.length = wordsHanded x job := by
  rw [resultOf, packOf, pack_out_length, edgeOf, edge_released_numbers, List.length_nil,
    Nat.zero_add]
  rfl

/-! ## A blocked channel -/

/-- A pixel step can be taken when the job's next pixel is at hand and the output FIFO has room. -/
theorem pixelReady_isSome_iff (s : State) (c : Chan) : (s.pixelReady c).isSome = true ↔
    (s.chan c).state = .run ∧ ∃ job rest, (s.chan c).jobs = job :: rest ∧
      (s.chan c).nextWord ≠ none ∧ (s.chan c).outFifo.length + wordsHanded (s.chan c) job ≤ 16 := by
  constructor
  · intro h
    obtain ⟨⟨job, r⟩, hready⟩ := Option.isSome_iff_exists.1 h
    obtain ⟨⟨rest, hjobs⟩, hrun, hwork, hroom⟩ := pixelReady_eq_some_iff.1 hready
    obtain ⟨w, fifo, hword, rfl⟩ := pixelWork_eq_some_iff.1 hwork
    rw [resultOf_out_length] at hroom
    exact ⟨hrun, job, rest, hjobs, by simp [hword], hroom⟩
  · rintro ⟨hrun, job, rest, hjobs, hword, hroom⟩
    obtain ⟨⟨w, fifo⟩, hword⟩ := Option.ne_none_iff_exists'.1 hword
    refine Option.isSome_iff_exists.2 ⟨(job, _), pixelReady_eq_some_iff.2 ⟨⟨rest, hjobs⟩, hrun,
      pixelWork_eq_some_iff.2 ⟨w, fifo, hword, rfl⟩, ?_⟩⟩
    rw [resultOf_out_length]
    exact hroom

/-- Whether a channel is blocked is a matter of that channel alone. -/
theorem blocked_of_chan {s t : State} {c : Chan} (h : t.chan c = s.chan c) :
    t.blocked c = s.blocked c := by
  have hready : (t.pixelReady c).isSome = (s.pixelReady c).isSome := by
    rw [Bool.eq_iff_iff, pixelReady_isSome_iff, pixelReady_isSome_iff, h]
  rw [State.blocked, State.blocked, h, ← Option.not_isSome, ← Option.not_isSome, hready]

theorem run_of_blocked {s : State} {c : Chan} (h : s.blocked c = true) :
    (s.chan c).state = .run := by
  rw [State.blocked, Bool.and_eq_true, decide_eq_true_iff] at h
  exact h.1

/-- The channel as the tick at its own stall timer leaves it (R126). -/
def afterStall (s : State) (c : Chan) : Channel :=
  if s.expiring c then (s.chan c).faulted c .stalled
  else if s.stalling c then { s.chan c with stall := (s.chan c).stall + 1 }
  else s.chan c

theorem afterStall_of_chan {s t : State} {c : Chan} (h : t.chan c = s.chan c) :
    afterStall t c = afterStall s c := by
  unfold afterStall State.expiring State.stalling
  rw [blocked_of_chan h, h]

theorem afterStall_of_not_blocked {s : State} {c : Chan} (h : s.blocked c = false) :
    afterStall s c = s.chan c := by
  simp [afterStall, State.expiring, State.stalling, h]

theorem afterStall_of_expiring {s : State} {c : Chan} (h : s.expiring c = true) :
    afterStall s c = (s.chan c).faulted c .stalled := if_pos h

theorem afterStall_of_not_expiring {s : State} {c : Chan} (h : s.expiring c = false) :
    afterStall s c = if s.stalling c then { s.chan c with stall := (s.chan c).stall + 1 }
      else s.chan c := if_neg (by simp [h])

/-! ## Channels woken meanwhile -/

/-- The channel is left, or it waits and its wait reason is exchanged (R120). -/
def Woken (x y : Channel) : Prop :=
  y = x ∨ ∃ r q, x.state = .wait r ∧ y = { x with state := .wait q }

theorem woken_refl (x : Channel) : Woken x x := .inl rfl

theorem woken_trans {x y z : Channel} (h : Woken x y) (h' : Woken y z) : Woken x z := by
  obtain rfl | ⟨r, q, hx, rfl⟩ := h
  · exact h'
  · obtain rfl | ⟨-, q', -, rfl⟩ := h'
    · exact .inr ⟨r, q, hx, rfl⟩
    · exact .inr ⟨r, q', hx, rfl⟩

theorem eq_of_woken {x y : Channel} (h : Woken x y) (hx : ∀ r, x.state ≠ .wait r) : y = x := by
  obtain rfl | ⟨r, -, hwait, -⟩ := h
  · rfl
  · exact absurd hwait (hx r)

theorem woken_stall {x y : Channel} (h : Woken x y) : y.stall = x.stall := by
  obtain rfl | ⟨-, -, -, rfl⟩ := h <;> rfl

theorem woken_wakeForBank (x : Channel) (b : BankId) : Woken x (x.wakeForBank b) := by
  unfold Channel.wakeForBank
  split
  next h => exact .inr ⟨_, .start, h.1, rfl⟩
  next => exact woken_refl x

theorem woken_wakeForMap (x : Channel) (m : MapId) : Woken x (x.wakeForMap m) := by
  unfold Channel.wakeForMap
  split
  next h => exact .inr ⟨_, .start, h.1, rfl⟩
  next => exact woken_refl x

theorem judgeBank_woken (s : State) (b : BankId) (c : Chan) :
    Woken (s.chan c) ((s.judgeBank b).chan c) := by
  obtain ⟨-, h⟩ | ⟨-, h⟩ := s.judgeBank_cases b
  · rw [h]
    exact woken_refl _
  · obtain ⟨-, h'⟩ | ⟨-, h'⟩ := s.attemptCommit_cases b
    · rw [h, h', State.setCommit_chan]
      exact woken_refl _
    · rw [h, h', commit_chan]
      exact woken_wakeForBank _ b

theorem releaseHolds_woken (s : State) (x : Context) (c : Chan) :
    Woken (s.chan c) ((s.releaseHolds x).chan c) := by
  have hdrop : (dropHolds s x).chan c = s.chan c := by
    rw [dropHolds_spec]
    rfl
  rw [releaseHolds_eq_judge, ← hdrop]
  split
  · exact judgeBank_woken _ _ c
  · exact woken_refl _

theorem faultJob_woken (s : State) (d : Chan) (f : FaultCode) (c : Chan) :
    Woken ((s.setChan d ((s.chan d).faulted d f)).chan c) ((s.faultJob d f).chan c) := by
  obtain ⟨-, h⟩ | ⟨-, h⟩ := s.faultJob_cases d f
  · rw [h]
    exact woken_refl _
  · rw [h]
    exact releaseHolds_woken _ _ c

theorem lookForBuild_woken (s : State) (c : Chan) : Woken (s.chan c) (s.lookForBuild.chan c) := by
  obtain h | ⟨r, -, -, hstart, h⟩ := s.lookForBuild_cases
  · rw [h]
    exact woken_refl _
  · rw [h, startBuild_eq]
    split
    · rw [noCandidates_enterBuilding ((startable_iff s r).1 hstart).2, State.wakeMap_chan]
      exact woken_wakeForMap _ _
    · exact .inl (congrArg (·.get c) (State.enterBuilding_channels s r))

/-- A channel that is woken is not in RUN, so its stall timer takes no tick. -/
theorem afterStall_woken {s t : State} {c : Chan} (h : Woken (s.chan c) (t.chan c)) :
    Woken (afterStall s c) (afterStall t c) := by
  have hstill {u : State} {r : WaitReason} (hwait : (u.chan c).state = .wait r) :
      afterStall u c = u.chan c :=
    afterStall_of_not_blocked (by simp [State.blocked, hwait])
  have hwoken := h
  obtain heq | ⟨r, q, hs, ht⟩ := h
  · rw [afterStall_of_chan heq]
    exact woken_refl _
  · rw [hstill hs, hstill (r := q) (by rw [ht])]
    exact hwoken

/-! ## The ticks at the stall timers -/

theorem stallTick_cases (s : State) (d : Chan) :
    (s.expiring d = true ∧ s.stallTick d = s.faultJob d .stalled) ∨
      (s.expiring d = false ∧ s.stallTick d = s.setChan d (afterStall s d)) := by
  unfold State.stallTick
  cases hexp : s.expiring d with
  | true => exact .inl ⟨rfl, rfl⟩
  | false =>
    refine .inr ⟨rfl, ?_⟩
    rw [afterStall_of_not_expiring hexp, if_neg (by decide)]
    split
    · rfl
    · rw [State.setChan, State.chan, PerChan.set_get]

theorem stallTick_woken (s : State) (d c : Chan) :
    Woken (if c = d then afterStall s c else s.chan c) ((s.stallTick d).chan c) := by
  have hset :
    (s.setChan d (afterStall s d)).chan c = if c = d then afterStall s c else s.chan c := by
    rw [State.chan_setChan]
    grind
  rw [← hset]
  obtain ⟨hexp, h⟩ | ⟨-, h⟩ := stallTick_cases s d
  · rw [h, afterStall_of_expiring hexp]
    exact faultJob_woken s d .stalled c
  · rw [h]
    exact woken_refl _

/-- After the ticks each channel of the list is as its own tick leaves it, but for being woken. -/
theorem stallTicks_woken (c : Chan) {l : List Chan} (hl : l.Nodup) :
    ∀ s : State, Woken (if c ∈ l then afterStall s c else s.chan c) ((s.stallTicks l).chan c) := by
  induction l with
  | nil => exact fun s => woken_refl _
  | cons d l ih =>
    intro s
    obtain ⟨hd, hl⟩ := List.nodup_cons.1 hl
    have hfirst := stallTick_woken s d c
    have hrest : Woken _ ((s.stallTicks (d :: l)).chan c) := ih hl (s.stallTick d)
    by_cases heq : c = d
    · subst heq
      rw [if_pos rfl] at hfirst
      rw [if_neg hd] at hrest
      rw [if_pos List.mem_cons_self]
      exact woken_trans hfirst hrest
    · rw [if_neg heq] at hfirst
      by_cases hmem : c ∈ l
      · rw [if_pos hmem] at hrest
        rw [if_pos (List.mem_cons_of_mem d hmem)]
        exact woken_trans (afterStall_woken hfirst) hrest
      · rw [if_neg hmem] at hrest
        rw [if_neg (by simp [heq, hmem])]
        exact woken_trans hfirst hrest

/-- When no timer of the list expires, each tick leaves its own channel with its timer advanced. -/
theorem stallTicks_of_none_expiring {l : List Chan} (hl : l.Nodup) :
    ∀ s : State, (∀ c ∈ l, s.expiring c = false) →
      s.stallTicks l = { s with channels := (s.stallTicks l).channels } ∧
        ∀ c, (s.stallTicks l).chan c = if c ∈ l then afterStall s c else s.chan c := by
  induction l with
  | nil => exact fun s _ => ⟨rfl, fun c => rfl⟩
  | cons d l ih =>
    intro s hnone
    obtain ⟨hd, hl⟩ := List.nodup_cons.1 hl
    obtain ⟨hexp, -⟩ | ⟨-, hfirst⟩ := stallTick_cases s d
    · rw [hnone d List.mem_cons_self] at hexp
      exact absurd hexp (by decide)
    have hother {c : Chan} (hne : c ≠ d) : (s.stallTick d).chan c = s.chan c := by
      rw [hfirst, State.chan_setChan, if_neg hne]
    have hkept : ∀ c ∈ l, (s.stallTick d).expiring c = false := fun c hc => by
      have hchan := hother fun heq => hd (heq ▸ hc)
      have hexp := hnone c (List.mem_cons_of_mem d hc)
      rw [State.expiring, State.stalling, blocked_of_chan hchan, hchan]
      exact hexp
    obtain ⟨hframe, hchans⟩ := ih hl (s.stallTick d) hkept
    refine ⟨?_, fun c => ?_⟩
    · have hstep : s.stallTick d = { s with channels := (s.stallTick d).channels } := by
        rw [hfirst]
        rfl
      have hmid : (s.stallTick d).stallTicks l =
          { s with channels := ((s.stallTick d).stallTicks l).channels } := by
        rw [hstep] at hframe ⊢
        exact hframe
      exact hmid
    · refine (hchans c).trans ?_
      by_cases heq : c = d
      · subst heq
        rw [if_neg hd, if_pos List.mem_cons_self, hfirst, State.chan_setChan, if_pos rfl]
      · rw [hother heq, afterStall_of_chan (hother heq)]
        simp [heq]

theorem stallTicks_timebase (l : List Chan) :
    ∀ s : State, (s.stallTicks l).timebase = s.timebase := by
  induction l with
  | nil => exact fun s => rfl
  | cons d l ih =>
    intro s
    have hfirst : (s.stallTick d).timebase = s.timebase := by
      obtain ⟨-, h⟩ | ⟨-, h⟩ := stallTick_cases s d
      · rw [h, State.faultJob_timebase]
      · rw [h]
        rfl
    exact (ih (s.stallTick d)).trans hfirst

theorem chanOrder_nodup (n : Fin 6) : (chanOrder n).Nodup := by revert n; decide

theorem mem_chanOrder (n : Fin 6) (c : Chan) : c ∈ chanOrder n := by
  revert n
  cases c <;> decide

/-- The tick at all stall timers takes each channel once, in some order (log 7). -/
theorem tickChannels_eq (s : State) : ∃ n l, l.Nodup ∧ (∀ c, c ∈ l) ∧
    s.tickChannels = State.stallTicks { s with freeCount := n } l := by
  unfold State.tickChannels
  split
  · exact ⟨_, _, chanOrder_nodup _, mem_chanOrder _, rfl⟩
  · exact ⟨s.freeCount, chanOrder 0, chanOrder_nodup 0, mem_chanOrder 0, rfl⟩

theorem tickChannels_of_none_expiring {s : State} (h : ∀ c, s.expiring c = false) :
    s.tickChannels = s.stallTicks (chanOrder 0) := by
  unfold State.tickChannels
  rw [if_neg (by simp [State.manyExpire, h])]
  rfl

/-! ## O2 -/

/-- The state as a tick hands it to the stall timers. -/
def tickStart (s : State) : State :=
  { s with timebase := { s.timebase with count := 0 }, eq := s.eq.tick }

theorem exec_tick (s : State) : exec .tick s = .next (tickStart s).tickChannels.lookForBuild := rfl

theorem tick_timebase (s : State) :
    (tickStart s).tickChannels.lookForBuild.timebase = { s.timebase with count := 0 } := by
  obtain ⟨n, l, -, -, h⟩ := tickChannels_eq (tickStart s)
  rw [State.lookForBuild_timebase, h, stallTicks_timebase]
  rfl

theorem tick_woken (s : State) (c : Chan) :
    Woken (afterStall s c) ((tickStart s).tickChannels.lookForBuild.chan c) := by
  obtain ⟨n, l, hl, hmem, h⟩ := tickChannels_eq (tickStart s)
  have hticks := stallTicks_woken c hl { tickStart s with freeCount := n }
  rw [if_pos (hmem c), ← h] at hticks
  exact woken_trans (afterStall_of_chan (s := s) rfl ▸ hticks) (lookForBuild_woken _ c)

theorem stalling_eq_false_iff (s : State) (c : Chan) : s.stalling c = false ↔
    s.blocked c = false ∨ (s.chan c).ctx.stallLimit = 0 := by
  rw [← Bool.not_eq_true, stalling_iff]
  simp only [not_and_or, Bool.not_eq_true, ne_eq, not_not]

theorem expiring_eq_false_iff (s : State) (c : Chan) : s.expiring c = false ↔
    s.blocked c = false ∨ (s.chan c).ctx.stallLimit = 0 ∨
      (s.chan c).stall + 1 < (s.chan c).ctx.stallLimit.toNat := by
  rw [← Bool.not_eq_true, expiring_iff]
  simp only [not_and_or, Bool.not_eq_true, ne_eq, not_not, not_le]

theorem step_of_pending_nil {s : State} (h : s.pending = []) : step s = .next s.clockCycle := by
  rw [step, h]

/-- Settles O2: the ticks at the stall timers leave each channel as its own tick does, since a
release by another channel's fault wakes only channels that wait. -/
theorem ticksDriveTheTimers : Obligations.TicksDriveTheTimers := by
  unfold Obligations.TicksDriveTheTimers
  refine ⟨fun s hnil => ⟨fun hlt => ?_, fun hle => ?_⟩, fun s => ⟨_, exec_tick s, tick_timebase s,
    fun c => ⟨?_, ?_, ?_⟩⟩, fun s hnone => ?_, ?_, ?_⟩
  · rw [step_of_pending_nil hnil, State.clockCycle, if_neg (by omega)]
  · rw [step_of_pending_nil hnil, State.clockCycle, if_pos hle]
    rfl
  · intro hexp
    have h := tick_woken s c
    rw [afterStall_of_expiring ((expiring_iff s c).2 hexp)] at h
    exact eq_of_woken h fun r => by simp [Channel.faulted]
  · rintro ⟨hblocked, hlimit, hlt⟩
    have h := tick_woken s c
    rw [afterStall_of_not_expiring ((expiring_eq_false_iff s c).2 (.inr (.inr hlt))),
      if_pos ((stalling_iff s c).2 ⟨hblocked, hlimit⟩)] at h
    exact eq_of_woken h fun r => by simp [run_of_blocked hblocked]
  · intro hstill
    have hno := (stalling_eq_false_iff s c).2 hstill
    have h := tick_woken s c
    rw [afterStall_of_not_expiring (by simp [State.expiring, hno]), if_neg (by simp [hno])] at h
    exact woken_stall h
  · have hexp : ∀ c, s.expiring c = false := fun c => (expiring_eq_false_iff s c).2 (hnone c)
    obtain ⟨hframe, hchans⟩ := stallTicks_of_none_expiring (chanOrder_nodup 0) (tickStart s)
      fun c _ => hexp c
    refine ⟨(tickStart s).stallTicks (chanOrder 0), ?_, ?_, fun c => ?_⟩
    · rw [exec_tick, tickChannels_of_none_expiring (s := tickStart s) hexp]
    · rw [← eqTick_eq]
      exact hframe
    · rw [hchans, if_pos (mem_chanOrder 0 c), afterStall_of_chan (t := tickStart s) (s := s) rfl,
        afterStall_of_not_expiring (hexp c)]
      simp only [stalling_iff]
  · intro c s hblocked hlimit hle
    rw [exec, execStalled, if_pos ((expiring_iff s c).2 ⟨hblocked, hlimit, hle⟩)]
  · intro s hroutine htimeout hoverdue hle
    have htick : s.eq.tick = { s.eq with timer := s.eq.timer + 1, overdue := true } := by
      rw [eqTick_eq, if_pos ⟨hroutine, htimeout, hoverdue⟩, decide_eq_true hle]
    rw [exec, execOverdue, htick, if_pos ⟨rfl, hoverdue⟩]

end Sys2Proof.Proofs
end

section
/-! PROOFS. The window's decoder (R176, R177, Tables 11-1 and 11-3): which accesses reach a
register, and that the access a command spells decodes to it. -/

namespace Sys2Proof.Proofs

open Sys2Proof Sys2Proof.Machine Sys2Proof.Safety

/-! ## Offsets and registers (Tables 11-1 and 11-3) -/

theorem commonRegAt_offset {offset : Nat} {r : Reg} (h : commonRegAt offset = some r) :
    r.offset = offset := by
  unfold commonRegAt at h
  split at h <;> cases h <;> rfl

theorem chanRegAt_offset {c : Chan} {rel : Nat} {r : Reg} (h : chanRegAt c rel = some r) :
    r.offset = c.base + rel := by
  unfold chanRegAt at h
  split at h <;> cases h <;> rfl

theorem offset_of_regAt {offset : Nat} {r : Reg} (h : regAt offset = some r) :
    r.offset = offset := by
  have hblock {c : Chan} {base : Nat} (hbase : c.base = base) (hle : base ≤ offset)
      (hreg : chanRegAt c (offset - base) = some r) : r.offset = offset := by
    rw [chanRegAt_offset hreg, hbase, Nat.add_sub_cancel' hle]
  unfold regAt at h
  split at h
  next => exact commonRegAt_offset h
  next hge0 =>
    split at h
    next => exact hblock (c := .ch0) rfl (Nat.le_of_not_lt hge0) h
    next hge1 =>
      split at h
      next => exact hblock (c := .ch1) rfl (Nat.le_of_not_lt hge1) h
      next hge2 =>
        split at h
        next => exact hblock (c := .ch2) rfl (Nat.le_of_not_lt hge2) h
        next => simp at h

theorem accessReg_eq_some_iff (width offset : Nat) (r : Reg) :
    accessReg width offset = some r ↔ width = 32 ∧ r.offset = offset := by
  constructor
  · intro h
    unfold accessReg at h
    split at h
    next hvalid => exact ⟨hvalid.1, offset_of_regAt h⟩
    next => simp at h
  · rintro ⟨rfl, rfl⟩
    exact accessReg_offset r

theorem regAt_offset (r : Reg) : regAt r.offset = some r ∧ r.offset % 4 = 0 := by
  have h := accessReg_offset r
  unfold accessReg at h
  split at h
  next hvalid => exact ⟨h, hvalid.2⟩
  next => simp at h

theorem offset_lt_windowBytes (r : Reg) : r.offset < windowBytes := by
  have hchan (c : Chan) (k : Nat) (hk : k ≤ 0x34) : c.base + k < windowBytes := by
    have hbase : c.base ≤ 0x180 := by cases c <;> decide
    unfold windowBytes
    omega
  cases r with
  | bankStatus b => cases b <;> decide
  | mapStatus m => cases m <;> decide
  | ctx c x => exact hchan c _ (by cases x <;> decide)
  | jobCount c | jobWidth c | jobPush c | chCmd c | chStatus c | chProgress c | chIn c | chOut c =>
    exact hchan c _ (by decide)
  | _ => decide

/-! ## What the decoder answers -/

theorem decodeAccess_of_no_reg {a : HostAccess} (h : accessReg a.width a.offset = none) :
    decodeAccess a = some (.invalidAccess a.write a.width a.offset) := by
  rw [decodeAccess, h]

theorem decodeAccess_of_reg {a : HostAccess} {r : Reg} (h : accessReg a.width a.offset = some r) :
    decodeAccess a = if a.write then
        if r.writable then decodeWrite r a.value else some (.wrongTypeAccess true r)
      else if r.readable then decodeRead r else some (.wrongTypeAccess false r) := by
  rw [decodeAccess, h]

theorem decodeAccess_readOf {r : Reg} (h : r.readable = true) :
    decodeAccess (readOf r) = decodeRead r := by
  rw [decodeAccess_of_reg (accessReg_offset r), if_neg (by simp [readOf]), if_pos h]

theorem decodeStgCmd_wf (v : Word) : (decodeStgCmd v).wf = true := by
  have hcode : ∀ x : BitVec 2, x ≠ 1 → x ≠ 2 → (x == 0 || x == 3) = true := by decide
  unfold decodeStgCmd
  dsimp only
  split
  next => rfl
  next h1 =>
    split
    next => rfl
    next h2 => exact hcode _ h1 h2

theorem decodeBldCmd_wf (v : Word) : (decodeBldCmd v).wf = true := by
  have hcode : ∀ x : BitVec 2, x ≠ 1 → x ≠ 2 → (x == 0 || x == 3) = true := by decide
  unfold decodeBldCmd
  dsimp only
  split
  next => rfl
  next h1 =>
    split
    next => rfl
    next h2 => exact hcode _ h1 h2

theorem decodeChCmd_wf (c : Chan) (v : Word) : (decodeChCmd c v).wf = true := by
  have hcode : ∀ x : BitVec 2, x ≠ 1 → x ≠ 2 → x ≠ 3 → (x == 0) = true := by decide
  unfold decodeChCmd
  dsimp only
  split
  next => rfl
  next h1 =>
    split
    next => rfl
    next h2 =>
      split
      next => rfl
      next h3 => exact hcode _ h1 h2 h3

theorem decodeEngCtrl_wf (v : Word) : (decodeEngCtrl v).wf = true := by
  unfold decodeEngCtrl
  split
  · rfl
  · split <;> rfl

/-- A write of a writable register is a command, and a well-formed one. -/
theorem decodeWrite_wf {r : Reg} (h : r.writable = true) (v : Word) :
    ∃ i, decodeWrite r v = some i ∧ i.wf = true := by
  cases r with
  | engCtrl => exact ⟨_, rfl, decodeEngCtrl_wf v⟩
  | stgCmd => exact ⟨_, rfl, decodeStgCmd_wf v⟩
  | bldCmd => exact ⟨_, rfl, decodeBldCmd_wf v⟩
  | chCmd c => exact ⟨_, rfl, decodeChCmd_wf c v⟩
  | engStatus | eqHead0 | eqHead1 | eqNext | eqStatus | stgStatus | apStatus | bankStatus b
  | scnStatus | bldStatus | mapStatus m | chStatus c | chProgress c | chOut c =>
    exact absurd h (by simp [Reg.writable])
  | _ => exact ⟨_, rfl, rfl⟩

/-- A read of a readable register is a well-formed command, or shows the state and changes nothing.
-/
theorem decodeRead_wf {r : Reg} (h : r.readable = true) :
    (∃ i, decodeRead r = some i ∧ i.wf = true) ∨
      (decodeRead r = none ∧ ∀ s : State, (s.registerWord r).isSome = true) := by
  cases r with
  | eqHead0 | eqHead1 | eqNext | apData | chOut c => exact .inl ⟨_, rfl, rfl⟩
  | eqPop | stgHdr | stgData | stgCmd | bldCmd | jobPush c | chCmd c | chIn c =>
    exact absurd h (by simp [Reg.readable])
  | _ => exact .inr ⟨rfl, fun s => rfl⟩

/-- Settles O12: the decoder is taken apart by the register reached and the access's direction. -/
theorem windowDecodesEveryAccess : Obligations.WindowDecodesEveryAccess := by
  unfold Obligations.WindowDecodesEveryAccess
  refine ⟨fun r => ⟨(regAt_offset r).1, (regAt_offset r).2, offset_lt_windowBytes r⟩,
    accessReg_eq_some_iff, fun a ha => ?_⟩
  cases hreg : accessReg a.width a.offset with
  | none =>
    rw [decodeAccess_of_no_reg hreg]
    refine ⟨fun i hi => ?_, fun hnone => by simp at hnone⟩
    obtain rfl := Option.some.inj hi
    simp [Instr.wf, ha, hreg]
  | some r =>
    obtain ⟨hwidth, hoffset⟩ := (accessReg_eq_some_iff _ _ _).1 hreg
    rw [decodeAccess_of_reg hreg]
    cases hdir : a.write with
    | true =>
      rw [if_pos rfl]
      cases hw : r.writable with
      | true =>
        obtain ⟨i, hi, hwf⟩ := decodeWrite_wf hw a.value
        simp [hi, hwf]
      | false => simp [Instr.wf, hw]
    | false =>
      rw [if_neg (by decide)]
      cases hr : r.readable with
      | true =>
        rw [if_pos rfl]
        obtain ⟨i, hi, hwf⟩ | ⟨hnone, hword⟩ := decodeRead_wf hr
        · simp [hi, hwf]
        · rw [hnone]
          exact ⟨fun i hi => by simp at hi,
            fun _ => ⟨rfl, r, hwidth, hoffset.symm, hr, hword⟩⟩
      | false => simp [Instr.wf, hr]

/-! ## The access a command spells (Tables 11-6 and 11-9) -/

theorem engCtrlWord_bits (r e : Bool) (en : IrqEnables) :
    bitAt (engCtrlWord r e en) 0 = r ∧ bitAt (engCtrlWord r e en) 1 = e ∧
      enablesOf (engCtrlWord r e en) = en := by
  obtain ⟨u, n, f⟩ := en
  revert r e u n f
  decide

theorem decodeEngCtrl_engCtrlWord (r e : Bool) (en : IrqEnables) :
    decodeEngCtrl (engCtrlWord r e en) =
      if r then .softReset e en
      else if e then .scanoutEnable false en else .scanoutDisable false en := by
  obtain ⟨hr, he, hen⟩ := engCtrlWord_bits r e en
  rw [decodeEngCtrl, hr, he, hen]

/-- The command that an ENG_CTRL word decodes to is the whole write of that word (R179). -/
theorem exec_decodeEngCtrl (r e : Bool) (en : IrqEnables) (s : State) :
    exec (decodeEngCtrl (engCtrlWord r e en)) s = exec (.interruptEnables r e en) s := by
  rw [decodeEngCtrl_engCtrlWord]
  cases r <;> cases e <;> rfl

theorem decodeStgCmd_sealWord (b : BankId) (n : Bool) :
    decodeStgCmd (1 ||| putAt b.code 4 ||| putBit n 8) = .stgCmdSeal b n := by
  cases b <;> cases n <;> rfl

theorem decodeStgCmd_discardWord (b : BankId) :
    decodeStgCmd (2 ||| putAt b.code 4) = .stgCmdDiscard b := by
  cases b <;> rfl

theorem decodeStgCmd_ignoredWord :
    ∀ x : BitVec 2, (x == 0 || x == 3) = true → decodeStgCmd (putAt x 0) = .stgCmdIgnored x := by
  decide

theorem decodeBldCmd_abortWord (m : MapId) :
    decodeBldCmd (2 ||| putAt m.code 4) = .bldCmdAbort m := by
  cases m <;> rfl

theorem decodeBldCmd_ignoredWord :
    ∀ x : BitVec 2, (x == 0 || x == 3) = true → decodeBldCmd (putAt x 0) = .bldCmdIgnored x := by
  decide

theorem decodeChCmd_ignoredWord (c : Chan) {x : BitVec 2} (h : (x == 0) = true) :
    decodeChCmd c (putAt x 0) = .chCmdIgnored c x := by
  obtain rfl : x = 0 := by simpa using h
  rfl

/-- The access of a command other than the rows of ENG_CTRL decodes to that command. -/
theorem decodeAccess_accessOf {i : Instr} {a : HostAccess} (hwf : i.wf = true)
    (h : accessOf i = some a) :
    decodeAccess a = some i ∨ ∃ r e en, a = writeOf .engCtrl (engCtrlWord r e en) ∧
      ∀ s, exec (.interruptEnables r e en) s = exec i s := by
  cases i with
  | fullReset | frameStart | lookup x | tick | stalled c | overdue | insertionEvent
  | fetchCompletion
  | buildStart | cellCompletion | segmentStartAttempt c | pixelStep c => simp [accessOf] at h
  | invalidAccess w width offset =>
    obtain rfl := Option.some.inj h
    rw [Instr.wf, Bool.and_eq_true, Option.isNone_iff_eq_none] at hwf
    exact .inl (decodeAccess_of_no_reg hwf.2)
  | wrongTypeAccess w r =>
    obtain rfl := Option.some.inj h
    rw [decodeAccess_of_reg (accessReg_offset r)]
    cases w with
    | true =>
      have hw : r.writable = false := by simpa [Instr.wf] using hwf
      simp [hw]
    | false =>
      have hr : r.readable = false := by simpa [Instr.wf] using hwf
      simp [hr]
  | softReset e en => exact .inr ⟨true, e, en, (Option.some.inj h).symm, fun s => rfl⟩
  | scanoutEnable r en => exact .inr ⟨r, true, en, (Option.some.inj h).symm, fun s => rfl⟩
  | scanoutDisable r en => exact .inr ⟨r, false, en, (Option.some.inj h).symm, fun s => rfl⟩
  | interruptEnables r e en => exact .inr ⟨r, e, en, (Option.some.inj h).symm, fun s => rfl⟩
  | eqHead0 | eqHead1 | eqNext | apDataRead | chOut c =>
    obtain rfl := Option.some.inj h
    exact .inl (decodeAccess_readOf rfl)
  | stgCmdSeal b n =>
    obtain rfl := Option.some.inj h
    rw [decodeAccess_writeOf_stgCmd, decodeStgCmd_sealWord]
    exact .inl rfl
  | stgCmdDiscard b =>
    obtain rfl := Option.some.inj h
    rw [decodeAccess_writeOf_stgCmd, decodeStgCmd_discardWord]
    exact .inl rfl
  | stgCmdIgnored x =>
    obtain rfl := Option.some.inj h
    rw [decodeAccess_writeOf_stgCmd, decodeStgCmd_ignoredWord x hwf]
    exact .inl rfl
  | bldCmdAbort m =>
    obtain rfl := Option.some.inj h
    rw [decodeAccess_writeOf_bldCmd, decodeBldCmd_abortWord]
    exact .inl rfl
  | bldCmdIgnored x =>
    obtain rfl := Option.some.inj h
    rw [decodeAccess_writeOf_bldCmd, decodeBldCmd_ignoredWord x hwf]
    exact .inl rfl
  | chCmdIgnored c x =>
    obtain rfl := Option.some.inj h
    rw [decodeAccess_writeOf_chCmd, decodeChCmd_ignoredWord c hwf]
    exact .inl rfl
  | registerWrite r v =>
    obtain rfl := Option.some.inj h
    cases r <;> exact .inl (decodeAccess_writeOf rfl v)
  | _ =>
    obtain rfl := Option.some.inj h
    exact .inl (decodeAccess_writeOf rfl _)

/-- Settles O13: each command's word is laid out so that the decoder reads its fields back. -/
theorem accessDecodingGivesTheCommandBack : Obligations.AccessDecodingGivesTheCommandBack := by
  unfold Obligations.AccessDecodingGivesTheCommandBack
  intro i a hwf h
  obtain hback | ⟨r, e, en, rfl, hsame⟩ := decodeAccess_accessOf hwf h
  · exact .inl hback
  · refine .inr ⟨rfl, _, decodeAccess_writeOf rfl _, fun s => ?_⟩
    rw [exec_decodeEngCtrl, hsame]

end Sys2Proof.Proofs
end

section
/-! PROOFS. The status words and the record words as the sums of their fields (Tables 11-7 to 11-9).
-/

namespace Sys2Proof.Proofs

open Sys2Proof Sys2Proof.Machine Sys2Proof.Safety

/-! ## Words built from their lowest field up -/

/-- The word is `a`, within its lowest `k` bits. -/
def Shows (y : Word) (k a : Nat) : Prop := y.toNat = a ∧ a < 2 ^ k

theorem shows_putAt_zero {n : Nat} (x : BitVec n) (h : n ≤ 32) : Shows (putAt x 0) n x.toNat := by
  refine ⟨?_, x.isLt⟩
  rw [putAt_toNat x 0 h, pow_zero, Nat.one_mul]

theorem shows_putBit_zero (b : Bool) : Shows (putBit b 0) 1 b.toNat := by
  have h := shows_putAt_zero (BitVec.ofBool b) (by decide)
  rw [ofBool_toNat] at h
  exact h

theorem shows_putNat_zero {w n : Nat} (hn : n < 2 ^ w) (h : w ≤ 32) : Shows (putNat w n 0) w n := by
  have hfirst := shows_putAt_zero (BitVec.ofNat w n) h
  rw [BitVec.toNat_ofNat, Nat.mod_eq_of_lt hn] at hfirst
  exact hfirst

/-- A field is put on top of a word that lies below its place. -/
theorem shows_putAt {n a j k : Nat} {y : Word} (hy : Shows y j a) (x : BitVec n) (hj : j ≤ k)
    (h : n + k ≤ 32) : Shows (y ||| putAt x k) (n + k) (a + 2 ^ k * x.toNat) := by
  have ha : a < 2 ^ k := hy.2.trans_le (Nat.pow_le_pow_right (by decide) hj)
  refine ⟨or_putAt_toNat hy.1 x ha h, ?_⟩
  calc a + 2 ^ k * x.toNat < 2 ^ k * (x.toNat + 1) := by rw [Nat.mul_succ]; omega
    _ ≤ 2 ^ k * 2 ^ n := Nat.mul_le_mul_left _ x.isLt
    _ = 2 ^ (n + k) := by rw [Nat.mul_comm, ← Nat.pow_add]

theorem shows_putBit {a j k : Nat} {y : Word} (hy : Shows y j a) (b : Bool) (hj : j ≤ k)
    (h : 1 + k ≤ 32) : Shows (y ||| putBit b k) (1 + k) (a + 2 ^ k * b.toNat) := by
  have hput := shows_putAt hy (BitVec.ofBool b) hj h
  rw [ofBool_toNat] at hput
  exact hput

theorem shows_putNat {w n a j k : Nat} {y : Word} (hy : Shows y j a) (hn : n < 2 ^ w) (hj : j ≤ k)
    (h : w + k ≤ 32) : Shows (y ||| putNat w n k) (w + k) (a + 2 ^ k * n) := by
  have hput := shows_putAt hy (BitVec.ofNat w n) hj h
  rw [BitVec.toNat_ofNat, Nat.mod_eq_of_lt hn] at hput
  exact hput

theorem or_swap (x y z : Word) : x ||| y ||| z = x ||| z ||| y := by
  rw [BitVec.or_assoc, BitVec.or_comm y, ← BitVec.or_assoc]

theorem or_reversed (a b c d e : Word) :
    a ||| b ||| c ||| d ||| e = e ||| d ||| c ||| b ||| a := by ac_rfl

/-- Two numbers in a word, each cut to its field. -/
theorem putNat_or_putNat_toNat (w n k v d : Nat) (hv : v ≤ k) (h : w + k ≤ 32) :
    (putNat w n k ||| putNat v d 0).toNat = d % 2 ^ v + 2 ^ k * (n % 2 ^ w) := by
  have hlow := shows_putAt_zero (BitVec.ofNat v d) (by omega)
  have hboth := (shows_putAt hlow (BitVec.ofNat w n) hv h).1
  rw [BitVec.toNat_ofNat, BitVec.toNat_ofNat] at hboth
  rw [BitVec.or_comm]
  exact hboth

/-! ## The codes within their fields -/

theorem scanoutCode_lt (x : ScanoutState) : x.code < 2 ^ 2 := by cases x <;> decide

theorem engineCode_lt (x : EngineState) : x.code < 2 ^ 2 := by
  unfold EngineState.code
  split <;> decide

theorem prefetchCode_lt (x : PrefetchState) : x.code < 2 ^ 2 := by cases x <;> decide

theorem chanStateCode_lt (x : ChanState) : x.code < 2 ^ 3 := by
  unfold ChanState.code
  split <;> decide

theorem reasonCode_eq (x : ChanState) : x.reasonCode =
    if x = .wait .start then 1 else if x = .wait .bankCommit then 2
    else if x = .wait .mapBusy then 3 else 0 := by
  cases x with
  | wait r => cases r <;> rfl
  | idle | run | post r | halted => rfl

theorem reasonCode_lt (x : ChanState) : x.reasonCode < 2 ^ 2 := by
  rw [reasonCode_eq]
  grind

theorem faultCode_lt (x : Channel) : x.faultCode < 2 ^ 3 := by
  unfold Channel.faultCode
  cases x.lastFault with
  | none => decide
  | some f => cases f <;> decide

theorem kindCode_lt (x : EventKind) : x.code < 2 ^ 3 := by cases x <;> decide

theorem prefetch_code_eq (p : AccessPort) : p.prefetch.code =
    if p.filling = true then 1 else if p.items = [] then 0 else 2 := by
  unfold AccessPort.prefetch
  split
  · rfl
  · split <;> rfl

theorem positions_le (t : PortTarget) : t.positions ≤ 512 := by
  unfold PortTarget.positions
  split <;> decide

/-! ## The status words of the blocks -/

section
variable {s : State}

theorem bankStatus_toNat {b : BankId} (h : (s.bank b).holders ≤ 4) : (s.bankStatus b).toNat =
    (s.bank b).generation.toNat + 2 ^ 16 * (s.bank b).holders +
      2 ^ 20 * (s.sealedPending b).toNat + 2 ^ 21 * (s.hasRole b).toNat := by
  have hgen := shows_putAt_zero (s.bank b).generation (by decide)
  have hholders := shows_putNat (w := 3) (k := 16) hgen (by omega : (s.bank b).holders < 2 ^ 3)
    (by decide) (by decide)
  have hsealed := shows_putBit (k := 20) hholders (s.sealedPending b) (by decide) (by decide)
  exact (shows_putBit (k := 21) hsealed (s.hasRole b) (by decide) (by decide)).1

theorem buildPending_eq_decide (s : State) (m : MapId) :
    s.buildPending m = decide (∃ q ∈ s.engine.requests, q.map = m) := by
  rw [Bool.eq_iff_iff]
  simp [State.buildPending]

theorem eqStatus_toNat (h : EventsOk s) : s.eqStatus.toNat = s.eq.urgent.length +
    2 ^ 8 * s.eq.routine.length + 2 ^ 16 * (s.eq.claim.isSome).toNat +
      2 ^ 17 * (decide (s.eq.claim = some .urgent)).toNat + 2 ^ 18 * s.eq.overdue.toNat := by
  obtain ⟨htotal, hroutine, -⟩ := h
  have h0 := shows_putNat_zero (w := 6) (by omega : s.eq.urgentCount < 2 ^ 6) (by decide)
  have h8 := shows_putNat (w := 5) (k := 8) h0 (by omega : s.eq.routineCount < 2 ^ 5) (by decide)
    (by decide)
  have h16 := shows_putBit (k := 16) h8 s.eq.claim.isSome (by decide) (by decide)
  have h17 := shows_putBit (k := 17) h16 (decide (s.eq.claim = some .urgent)) (by decide)
    (by decide)
  exact (shows_putBit (k := 18) h17 s.eq.overdue (by decide) (by decide)).1

/-- At most one record is OPEN (R38), so an OPEN record is the one the queue answers. -/
theorem openRecord_of_opened (h : StagingOk s) {r : UpdateRecord} (hr : r ∈ s.uq.records)
    (hopen : r.state = .opened) : s.uq.openRecord = some r := by
  obtain ⟨-, -, -, hone⟩ := h
  have hmem : r ∈ s.uq.records.filter fun r => decide (r.state = .opened) :=
    List.mem_filter.2 ⟨hr, decide_eq_true hopen⟩
  rw [UpdateQueue.openRecord, ← List.head?_filter]
  generalize s.uq.records.filter (fun r => decide (r.state = .opened)) = l at hmem hone
  match l, hone, hmem with
  | [q], _, hmem => rw [List.mem_singleton.1 hmem]; rfl

/-- The bank that STG_STATUS names; it is free with no record OPEN (log 5). -/
def stagingBank (s : State) : BankId :=
  match s.uq.openRecord with
  | some r => r.bank
  | none => BankId.ofCode (Config.noOpenBank s.stgStatusBase)

theorem stgStatus_eq (s : State) :
    s.stgStatus = s.stgStatusBase ||| putAt (stagingBank s).code 17 := by
  unfold State.stgStatus stagingBank
  cases s.uq.openRecord with
  | none => simp only [code_ofCode]
  | some r => rfl

theorem stgStatus_toNat (h : StagingOk s) : s.stgStatus.toNat = s.uq.records.length +
    2 ^ 8 * (s.uq.records.map fun r => r.count).sum +
      2 ^ 16 * (s.uq.records.any fun r => decide (r.state = .opened)).toNat +
      2 ^ 17 * (stagingBank s).code.toNat + 2 ^ 20 * (s.sealedPending .b0).toNat +
      2 ^ 21 * (s.sealedPending .b1).toNat + 2 ^ 22 * (s.sealedPending .b2).toNat +
      2 ^ 23 * (s.sealedPending .b3).toNat := by
  obtain ⟨hrecords, hwords, -⟩ := h
  have hopen : s.uq.openRecord.isSome = s.uq.records.any fun r => decide (r.state = .opened) := by
    rw [Bool.eq_iff_iff, UpdateQueue.openRecord, List.find?_isSome, List.any_eq_true]
  have hplaces : s.stgStatus = putNat 6 s.uq.recordCount 0 ||| putNat 8 s.uq.wordCount 8 |||
      putBit s.uq.openRecord.isSome 16 ||| putAt (stagingBank s).code 17 |||
      putBit (s.sealedPending .b0) 20 ||| putBit (s.sealedPending .b1) 21 |||
      putBit (s.sealedPending .b2) 22 ||| putBit (s.sealedPending .b3) 23 := by
    rw [stgStatus_eq, State.stgStatusBase]
    rw [or_swap _ (putBit (s.sealedPending .b3) 23), or_swap _ (putBit (s.sealedPending .b2) 22),
      or_swap _ (putBit (s.sealedPending .b1) 21), or_swap _ (putBit (s.sealedPending .b0) 20)]
  have h0 := shows_putNat_zero (w := 6) (by omega : s.uq.recordCount < 2 ^ 6) (by decide)
  have h8 := shows_putNat (w := 8) (k := 8) h0 (by omega : s.uq.wordCount < 2 ^ 8) (by decide)
    (by decide)
  have h16 := shows_putBit (k := 16) h8 s.uq.openRecord.isSome (by decide) (by decide)
  have h17 := shows_putAt (k := 17) h16 (stagingBank s).code (by decide) (by decide)
  have h20 := shows_putBit (k := 20) h17 (s.sealedPending .b0) (by decide) (by decide)
  have h21 := shows_putBit (k := 21) h20 (s.sealedPending .b1) (by decide) (by decide)
  have h22 := shows_putBit (k := 22) h21 (s.sealedPending .b2) (by decide) (by decide)
  have h23 := shows_putBit (k := 23) h22 (s.sealedPending .b3) (by decide) (by decide)
  rw [hplaces, ← hopen]
  exact h23.1

theorem apStatus_toNat (hindex : s.port.index < s.port.target.positions)
    (hitems : s.port.items.length ≤ 3) : s.apStatus.toNat =
      s.port.index + 2 ^ 16 * s.port.target.code.toNat +
        2 ^ 20 * (if s.port.filling = true then 1 else if s.port.items = [] then 0 else 2) +
        2 ^ 24 * s.port.items.length := by
  have hpositions := positions_le s.port.target
  have h0 := shows_putNat_zero (w := 9) (by omega : s.port.index < 2 ^ 9) (by decide)
  have h16 := shows_putAt (k := 16) h0 s.port.target.code (by decide) (by decide)
  have h20 := shows_putNat (w := 2) (k := 20) h16 (prefetchCode_lt s.port.prefetch) (by decide)
    (by decide)
  rw [← prefetch_code_eq]
  exact (shows_putNat (w := 2) (k := 24) h20 (by omega : s.port.items.length < 2 ^ 2) (by decide)
    (by decide)).1

theorem bldStatus_toNat (hrequests : s.engine.requests.length ≤ 3)
    (hprogress : s.engine.progress < 1024) :
    s.bldStatus.toNat = s.engine.state.code + 2 ^ 2 * s.engine.current.code.toNat +
      2 ^ 4 * s.engine.requests.length + 2 ^ 6 * (s.engine.abortSlot.isSome).toNat +
      2 ^ 16 * s.engine.progress := by
  have h0 := shows_putNat_zero (engineCode_lt s.engine.state) (by decide)
  have h2 := shows_putAt (k := 2) h0 s.engine.current.code (by decide) (by decide)
  have h4 := shows_putNat (w := 2) (k := 4) h2 (by omega : s.engine.requests.length < 2 ^ 2)
    (by decide) (by decide)
  have h6 := shows_putBit (k := 6) h4 s.engine.abortSlot.isSome (by decide) (by decide)
  exact (shows_putNat (w := 10) (k := 16) h6 hprogress (by decide) (by decide)).1

theorem scnStatus_toNat (s : State) : s.scnStatus.toNat =
    s.scanout.state.code + 2 ^ 4 * s.scanout.current.code.toNat +
      2 ^ 16 * s.scanout.frame.toNat := by
  have h0 := shows_putNat_zero (scanoutCode_lt s.scanout.state) (by decide)
  have h4 := shows_putAt (k := 4) h0 s.scanout.current.code (by decide) (by decide)
  exact (shows_putAt (k := 16) h4 s.scanout.frame (by decide) (by decide)).1

theorem engCtrlRead_toNat (s : State) : s.engCtrlRead.toNat =
    2 * (decide (s.scanout.state ≠ .off)).toNat + 2 ^ 4 * s.enables.urg.toNat +
      2 ^ 5 * s.enables.rtn.toNat + 2 ^ 6 * s.enables.flt.toNat := by
  have hzero : Shows (0#32) 0 0 := ⟨rfl, by decide⟩
  have h1 := shows_putBit (k := 1) hzero (decide (s.scanout.state ≠ .off)) (by decide) (by decide)
  rw [BitVec.zero_or, Nat.zero_add, pow_one] at h1
  have h4 := shows_putBit (k := 4) h1 s.enables.urg (by decide) (by decide)
  have h5 := shows_putBit (k := 5) h4 s.enables.rtn (by decide) (by decide)
  exact (shows_putBit (k := 6) h5 s.enables.flt (by decide) (by decide)).1

theorem engStatus_toNat (s : State) : s.engStatus.toNat =
    s.irq.toNat + 2 * s.urgentCondition.toNat + 2 ^ 2 * s.routineCondition.toNat +
      2 ^ 3 * s.overdueCondition.toNat + 2 ^ 4 * s.faultCondition.toNat +
      2 ^ 8 * (s.isHalted .ch0).toNat + 2 ^ 9 * (s.isHalted .ch1).toNat +
      2 ^ 10 * (s.isHalted .ch2).toNat := by
  have h0 := shows_putBit_zero s.irq
  have h1 := shows_putBit (k := 1) h0 s.urgentCondition (by decide) (by decide)
  rw [pow_one] at h1
  have h2 := shows_putBit (k := 2) h1 s.routineCondition (by decide) (by decide)
  have h3 := shows_putBit (k := 3) h2 s.overdueCondition (by decide) (by decide)
  have h4 := shows_putBit (k := 4) h3 s.faultCondition (by decide) (by decide)
  have h8 := shows_putBit (k := 8) h4 (s.isHalted .ch0) (by decide) (by decide)
  have h9 := shows_putBit (k := 9) h8 (s.isHalted .ch1) (by decide) (by decide)
  exact (shows_putBit (k := 10) h9 (s.isHalted .ch2) (by decide) (by decide)).1

end

theorem chanStatus_toNat {x : Channel} (h : ChannelOk x) : x.status.toNat =
    x.tag.toNat + 2 ^ 8 * x.state.code + 2 ^ 11 * x.state.reasonCode + 2 ^ 13 * x.faultCode +
      2 ^ 16 * x.jobs.length + 2 ^ 20 * x.inFifo.length + 2 ^ 25 * x.outFifo.length := by
  obtain ⟨hjobs, -, hin, hout, -⟩ := h
  have h0 := shows_putAt_zero x.tag (by decide)
  have h8 := shows_putNat (k := 8) h0 (chanStateCode_lt x.state) (by decide) (by decide)
  have h11 := shows_putNat (k := 11) h8 (reasonCode_lt x.state) (by decide) (by decide)
  have h13 := shows_putNat (k := 13) h11 (faultCode_lt x) (by decide) (by decide)
  have h16 := shows_putNat (w := 4) (k := 16) h13 (by omega : x.jobs.length < 2 ^ 4) (by decide)
    (by decide)
  have h20 := shows_putNat (w := 5) (k := 20) h16 (by omega : x.inFifo.length < 2 ^ 5) (by decide)
    (by decide)
  exact (shows_putNat (w := 5) (k := 25) h20 (by omega : x.outFifo.length < 2 ^ 5) (by decide)
    (by decide)).1

theorem progress_toNat (x : Channel) :
    x.progress.toNat = x.path.done % 2 ^ 20 + 2 ^ 20 * (x.segment % 4096) := by
  rw [Channel.progress, BitVec.or_comm, putNat_or_putNat_toNat _ _ _ _ _ (by decide) (by decide),
    show 2 ^ 12 = 4096 from rfl, Nat.mod_mod]

/-! ## The record words (Tables 11-7 and 11-8) -/

theorem recordWord0_toNat (q : StampedRecord) : (recordWord0 (some q)).toNat =
    q.record.kind.code + 2 ^ 3 * (decide (q.record.cls = .urgent)).toNat +
      2 ^ 4 * q.record.source.toNat + 2 ^ 8 * q.record.tag.toNat + 2 ^ 16 * q.stamp.toNat := by
  have h0 := shows_putNat_zero (kindCode_lt q.record.kind) (by decide)
  have h3 := shows_putBit (k := 3) h0 (decide (q.record.cls = .urgent)) (by decide) (by decide)
  have h4 := shows_putAt (k := 4) h3 q.record.source (by decide) (by decide)
  have h8 := shows_putAt (k := 8) h4 q.record.tag (by decide) (by decide)
  have h16 := shows_putAt (k := 16) h8 q.stamp (by decide) (by decide)
  have hplaces : recordWord0 (some q) = putNat 3 q.record.kind.code 0 |||
      putBit (decide (q.record.cls = .urgent)) 3 ||| putAt q.record.source 4 |||
      putAt q.record.tag 8 ||| putAt q.stamp 16 := or_reversed _ _ _ _ _
  rw [hplaces]
  exact h16.1

theorem recordWord1_toNat (q : StampedRecord) : (recordWord1 (some q)).toNat =
    match q.record.kind with
    | .jobDone => q.record.detail1 % 2 ^ 20 + 2 ^ 20 * (q.record.detail2 % 2 ^ 12)
    | .jobFault => q.record.detail2 % 2 ^ 20 + 2 ^ 20 * (q.record.detail1 % 2 ^ 3)
    | .segment => q.record.detail2 % 2 ^ 16 + 2 ^ 16 * (q.record.detail1 % 2 ^ 12)
    | .buildDone => q.record.detail1 % 2 ^ 16 + 2 ^ 16 * (q.record.detail2 % 2 ^ 16)
    | .buildFault => q.record.detail1 % 2 ^ 3
    | .commit => q.record.detail1 % 2 ^ 16 + 2 ^ 16 * (q.record.detail2 % 2 ^ 16) := by
  rw [recordWord1]
  cases q.record.kind with
  | jobDone | jobFault | segment | buildDone | commit =>
    exact putNat_or_putNat_toNat _ _ _ _ _ (by decide) (by decide)
  | buildFault =>
    have h := (shows_putAt_zero (BitVec.ofNat 3 q.record.detail1) (by decide)).1
    rw [BitVec.toNat_ofNat] at h
    exact h

/-- Settles O51: each word is the sum of its fields, from the lowest up. -/
theorem statusWordsShowTheState : Obligations.StatusWordsShowTheState := by
  unfold Obligations.StatusWordsShowTheState
  refine ⟨fun s ⟨hstaging, hevents, hchans, _, hindex, _⟩ => ⟨fun b hholders => ?_,
    fun m hvalid hholders => ?_, ?_, ?_, fun hitems => ?_, fun hrequests hprogress => ?_, ?_,
    ?_, ?_,
    fun c x hx => ⟨?_, ?_⟩⟩, fun q => ⟨?_, recordWord1_toNat q⟩, rfl, rfl⟩
  · exact ⟨_, rfl, bankStatus_toNat hholders⟩
  · refine ⟨_, rfl, ?_⟩
    rw [mapStatus_toNat (Nat.lt_of_le_of_lt (shapeCode_le hvalid hholders) (by decide)),
      mapStatusLow,
      buildPending_eq_decide]
    rfl
  · exact ⟨_, rfl, eqStatus_toNat hevents⟩
  · refine ⟨_, stagingBank s, rfl, fun r hr hopen => ?_, stgStatus_toNat hstaging⟩
    rw [stagingBank, openRecord_of_opened hstaging hr hopen]
  · exact ⟨_, rfl, apStatus_toNat hindex hitems⟩
  · refine ⟨_, rfl, (bldStatus_toNat hrequests hprogress).trans ?_⟩
    cases s.engine.state <;> rfl
  · refine ⟨_, rfl, (scnStatus_toNat s).trans ?_⟩
    cases s.scanout.state <;> rfl
  · exact ⟨_, rfl, engCtrlRead_toNat s⟩
  · exact ⟨_, rfl, engStatus_toNat s⟩
  · subst hx
    refine ⟨_, rfl, (chanStatus_toNat (hchans c)).trans ?_⟩
    rw [reasonCode_eq]
    cases (s.chan c).state <;> rfl
  · subst hx
    exact ⟨_, rfl, progress_toNat _⟩
  · refine (recordWord0_toNat q).trans ?_
    cases q.record.kind <;> rfl

end Sys2Proof.Proofs
end

section
/-! PROOFS. The pixel step (R139 to R153): what it does to one pixel inside a segment, and how it
ends segments and jobs. -/

namespace Sys2Proof.Proofs

open Sys2Proof Sys2Proof.Machine Sys2Proof.Safety

/-! ## Lanes and converted pixels (R5, R149, R150) -/

theorem laneValue_toNat (f : Format) (w : Word) (n : Nat) :
    (f.laneValue w n).toNat = w.toNat / 2 ^ (n * f.laneBits) % 2 ^ f.laneBits := by
  rw [Format.laneValue, BitVec.toNat_ofNat]
  refine Nat.mod_eq_of_lt ((Nat.mod_lt _ (Nat.two_pow_pos _)).trans_le ?_)
  exact Nat.pow_le_pow_right (by decide) (by cases f <;> decide)

section
variable {x : Context} (m : ReductionMap) (w n : Nat) (e : Entry)

theorem convert_of_a8888 (h : x.dst = .a8888) :
    x.convert m w { number := n, entry := e } = arrange x.lanes e := by rw [Context.convert, h]

theorem convert_of_r565 (h : x.dst = .r565) :
    x.convert m w { number := n, entry := e } = packR565 e := by rw [Context.convert, h]

theorem convert_of_a1555 (h : x.dst = .a1555) :
    x.convert m w { number := n, entry := e } = packA1555 e := by rw [Context.convert, h]

theorem convert_of_a4444 (h : x.dst = .a4444) :
    x.convert m w { number := n, entry := e } = packA4444 e := by rw [Context.convert, h]

theorem convert_of_i8 (h : x.dst = .i8) : x.convert m w { number := n, entry := e } =
    (m.reduce x.dither e (n % w) (n / w)).setWidth 32 := by rw [Context.convert, h]

end

/-! ## Packing pixel by pixel (R151) -/

theorem place_eq (q : Packing) (f : Format) (n k : Nat) (v : Word) : q.place f n k v =
    { word := if completesWord f n k then none else some (placed f k q.word v)
      out := q.out ++ if completesWord f n k then [placed f k q.word v] else [] } := by
  by_cases h : k % f.perWord + 1 = f.perWord ∨ k + 1 = n
  · have hc : completesWord f n k = true := decide_eq_true h
    rw [place_of_full v h, hc]
    rfl
  · have hc : completesWord f n k = false := decide_eq_false h
    rw [place_of_not_full v h, hc]
    simp

theorem pack_nil (x : Context) (m : ReductionMap) (job : Job) (q : Packing) :
    x.pack m job [] q = q := rfl

theorem pack_cons (x : Context) (m : ReductionMap) (job : Job) (p : Released) (ps : List Released)
    (q : Packing) : x.pack m job (p :: ps) q =
      x.pack m job ps (q.place x.dst job.count p.number (x.convert m job.width p)) := rfl

theorem pack_concat (x : Context) (m : ReductionMap) (job : Job) (p : Released) (ps : List Released)
    (q : Packing) : x.pack m job (ps ++ [p]) q =
      (x.pack m job ps q).place x.dst job.count p.number (x.convert m job.width p) := by
  rw [Context.pack, List.foldl_append]
  rfl

/-! ## The pixel step of a channel in RUN (R139, R140) -/

theorem exec_pixelStep_of_ready {s : State} {c : Chan} {job : Job} {r : PixelResult}
    (h : s.pixelReady c = some (job, r)) : exec (.pixelStep c) s = .next (s.takePixel c job r) := by
  rw [exec, execPixelStep, h]

/-- With its next pixel's word at hand, the step can be taken when its words fit the output FIFO. -/
theorem pixelReady_of_word {s : State} {c : Chan} {job : Job} {rest : List Job} {w : Word}
    {fifo : List Word} (hrun : (s.chan c).state = .run) (hjobs : (s.chan c).jobs = job :: rest)
    (hword : ((s.chan c).path.inWord = some w ∧ fifo = (s.chan c).inFifo) ∨
      ((s.chan c).path.inWord = none ∧ (s.chan c).inFifo = w :: fifo)) {r : PixelResult}
    (hr : r = resultOf (s.chan c) job (s.bank (s.chan c).ctx.bank).entries
      (s.map (s.chan c).ctx.map) w fifo) :
    s.pixelReady c =
      if (s.chan c).outFifo.length + r.out.length ≤ 16 then some (job, r) else none := by
  have hwork : (s.chan c).pixelWork job (s.bank (s.chan c).ctx.bank).entries
      (s.map (s.chan c).ctx.map) = some r :=
    pixelWork_eq_some_iff.2 ⟨w, fifo, nextWord_eq_some_iff.2 hword, hr⟩
  split
  next hroom => exact pixelReady_eq_some_iff.2 ⟨⟨rest, hjobs⟩, hrun, hwork, hroom⟩
  next hfull =>
    refine Option.eq_none_iff_forall_ne_some.2 fun ⟨j, r'⟩ hready => hfull ?_
    obtain ⟨⟨rest', hjobs'⟩, -, hwork', hroom⟩ := pixelReady_eq_some_iff.1 hready
    obtain ⟨rfl, -⟩ := List.cons.inj (hjobs.symm.trans hjobs')
    obtain rfl := Option.some.inj (hwork.symm.trans hwork')
    exact hroom

/-- Inside a segment the step changes the channel alone. -/
theorem takePixel_of_inside {s : State} {c : Chan} {job : Job} {r : PixelResult}
    (hnext : (s.chan c).path.next + 1 ≠ job.count)
    (hlast : (s.chan c).path.next ≠
      segmentLast (s.chan c).ctx.segLen.toNat job.count (s.chan c).segment) :
    s.takePixel c job r = s.setChan c ((s.chan c).withStep r) := by
  rw [State.takePixel, if_neg hnext]
  exact if_neg hlast

theorem takePixel_of_jobEnd {s : State} {c : Chan} {job : Job} {r : PixelResult}
    (hnext : (s.chan c).path.next + 1 = job.count) : s.takePixel c job r =
      ((s.setChan c (((s.chan c).withStep r).jobEnded c job)).releaseHolds
        (s.chan c).ctx).lookForBuild := if_pos hnext

theorem takePixel_of_segmentEnd {s : State} {c : Chan} {job : Job} {r : PixelResult}
    (hnext : (s.chan c).path.next + 1 ≠ job.count)
    (hlast : (s.chan c).path.next =
      segmentLast (s.chan c).ctx.segLen.toNat job.count (s.chan c).segment) :
    s.takePixel c job r =
      ((s.setChan c (((s.chan c).withStep r).segmentEnded c job
        (s.bank (s.chan c).ctx.bank).generation)).releaseHolds (s.chan c).ctx).lookForBuild := by
  rw [State.takePixel, if_neg hnext]
  exact if_pos hlast

/-! ## The edge step, as O43 spells it (R144 to R146) -/

theorem edgeStep_eq (x : Context) (e : Entry) (left right : Bool) : x.edgeStep e left right =
    if e.a ≠ 0 ∧ (left = true ∨ right = true) then { e with a := x.edgeAlpha } else e := by
  simp only [Context.edgeStep, Bool.or_eq_true]

theorem edgeStep_of_rowEnd (x : Context) (e : Entry) (left : Bool) : x.edgeStep e left false =
    if e.a ≠ 0 ∧ left = true then { e with a := x.edgeAlpha } else e := by
  simp only [Context.edgeStep, Bool.or_false]

theorem releaseHeld_eq (x : Context) (e : Entry) (held : Option HeldPixel) : releaseHeld x e held =
    match held with
    | none => []
    | some h => [{ number := h.number
                   entry := if h.entry.a ≠ 0 ∧ (h.leftTransparent = true ∨ e.a = 0)
                     then { h.entry with a := x.edgeAlpha } else h.entry }] := by
  cases held with
  | none => rfl
  | some h =>
    have hstep := edgeStep_eq x h.entry h.leftTransparent (decide (e.a = 0))
    simp only [decide_eq_true_iff] at hstep
    exact congrArg (fun y => [({ number := h.number, entry := y } : Released)]) hstep

/-- The edge step by its three cases: edge off, a row's or the job's end, and the pixels between. -/
theorem edge_eq_of_cases {x : Context} {w n k : Nat} {e : Entry} {held held' : Option HeldPixel}
    {left : Bool} {before ps : List Released} (hleft : left = leftIsClear w k held)
    (hbefore : before = releaseHeld x e held)
    (h : x.edgeEn = false ∧ ps = [{ number := k, entry := e }] ∧ held' = none ∨
      x.edgeEn = true ∧ (k % w = w - 1 ∨ k + 1 = n) ∧
        ps = before ++ [{ number := k, entry := if e.a ≠ 0 ∧ left = true
          then { e with a := x.edgeAlpha } else e }] ∧ held' = none ∨
      x.edgeEn = true ∧ ¬(k % w = w - 1 ∨ k + 1 = n) ∧ ps = before ∧
        held' = some { number := k, entry := e, leftTransparent := left }) :
    x.edge w n k e held = (ps, held') := by
  subst hleft hbefore
  obtain ⟨hoff, rfl, rfl⟩ | ⟨hon, hend, rfl, rfl⟩ | ⟨hon, hend, rfl, rfl⟩ := h
  · exact edge_of_off w n k e held hoff
  · rw [edge_of_endsRow e held hon ((endsRow_iff w n k).2 hend), edgeStep_of_rowEnd]
  · exact edge_of_not_endsRow e held hon (decide_eq_false hend)

/-! ## At most two pixels are packed in a step -/

/-- The words handed over and the word in progress, from the pixels released by a step. -/
theorem pack_eq_of_cases {x : Context} {m : ReductionMap} {job : Job} {ps : List Released}
    {word word' : Option Word} {out : List Word}
    (h : ps = [] ∧ out = [] ∧ word' = word ∨
      (∃ p v, ps = [p] ∧ v = placed x.dst p.number word (x.convert m job.width p) ∧
        out = (if completesWord x.dst job.count p.number then [v] else []) ∧
        word' = if completesWord x.dst job.count p.number then none else some v) ∨
      ∃ p q u v, ps = [p, q] ∧ u = placed x.dst p.number word (x.convert m job.width p) ∧
        v = (if completesWord x.dst job.count p.number then 0 else u) |||
          x.dst.inLane (x.convert m job.width q) (x.dst.laneOf q.number) ∧
        out = (if completesWord x.dst job.count p.number then [u] else []) ++
          (if completesWord x.dst job.count q.number then [v] else []) ∧
        word' = if completesWord x.dst job.count q.number then none else some v) :
    x.pack m job ps { word := word, out := [] } = { word := word', out := out } := by
  obtain ⟨rfl, rfl, rfl⟩ | ⟨p, v, rfl, rfl, rfl, rfl⟩ | ⟨p, q, u, v, rfl, rfl, rfl, rfl, rfl⟩ := h
  · exact pack_nil x m job _
  · rw [pack_cons, pack_nil, place_eq]
    rfl
  · rw [pack_cons, pack_cons, pack_nil, place_eq, place_eq]
    cases completesWord x.dst job.count p.number <;> rfl

/-- The step's result, from what the edge step and the packing leave. -/
theorem resultOf_eq {x : Channel} {job : Job} {bank : List (Nat × Entry)} {m : ReductionMap}
    {w : Word}
    {fifo : List Word} {ps : List Released} {held : Option HeldPixel} {word : Option Word}
    {out : List Word}
    (hedge : x.ctx.edge job.width job.count x.path.next (keyedEntry x bank w) x.path.held =
      (ps, held))
    (hpack : x.ctx.pack m job ps { word := x.path.outWord, out := [] } =
      { word := word, out := out }) :
    resultOf x job bank m w fifo =
      { path := { next := x.path.next + 1
                  inWord := wordAfter x.ctx.src job.count x.path.next w
                  held := held, outWord := word, done := x.path.done + ps.length }
        inFifo := fifo, out := out } := by
  have hedge' : edgeOf x job bank w = (ps, held) := hedge
  have hpack' : packOf x job bank m w = { word := word, out := out } := by
    rw [packOf, hedge']
    exact hpack
  rw [resultOf, hedge', hpack']

/-- With edge off the new pixel is released, and it alone is packed. -/
theorem resultOf_of_off {x : Channel} {job : Job} {bank : List (Nat × Entry)} {m : ReductionMap}
    {w v : Word} {fifo : List Word} (hoff : x.ctx.edgeEn = false)
    (hv : v = placed x.ctx.dst x.path.next x.path.outWord
      (x.ctx.convert m job.width { number := x.path.next, entry := keyedEntry x bank w })) :
    resultOf x job bank m w fifo =
      { path := { next := x.path.next + 1
                  inWord := wordAfter x.ctx.src job.count x.path.next w
                  held := none
                  outWord := if completesWord x.ctx.dst job.count x.path.next then none else some v
                  done := x.path.done + 1 }
        inFifo := fifo
        out := if completesWord x.ctx.dst job.count x.path.next then [v] else [] } :=
  resultOf_eq (edge_of_off _ _ _ _ _ hoff)
    (pack_eq_of_cases (.inr (.inl ⟨_, v, rfl, hv, rfl, rfl⟩)))

/-! ## O43 -/

/-- Before the job's last pixel only the lane decides whether a word is complete. -/
theorem completesWord_of_inside {f : Format} {n k : Nat} (h : k + 1 < n) :
    completesWord f n k = decide (k % f.perWord + 1 = f.perWord) := by
  rw [completesWord, Format.laneOf]
  exact decide_eq_decide.2 (or_iff_left (Nat.ne_of_lt h))

theorem wordAfter_of_inside {f : Format} {n k : Nat} (w : Word) (h : k + 1 < n) :
    wordAfter f n k w = if k % f.perWord + 1 = f.perWord then none else some w := by
  rw [wordAfter, Format.laneOf]
  exact if_congr (or_iff_left (Nat.ne_of_lt h)) rfl rfl

/-- Settles O43: the step is the edge step (`edge_eq_of_cases`) followed by the packing
(`pack_eq_of_cases`); with edge off exactly the new pixel is released. -/
theorem pixelStepConvertsOnePixel : Obligations.PixelStepConvertsOnePixel := by
  unfold Obligations.PixelStepConvertsOnePixel
  refine ⟨fun f => ⟨perWord_mul_laneBits f, by cases f <;> rfl⟩, laneValue_toNat,
    fun x m w n v e hv => ?_, ?_, ?_, ?_⟩
  · subst hv
    refine ⟨convert_lt x m w _, fun h => ?_, fun h => ?_, fun h => ?_, fun h => ?_, fun h => ?_⟩
    · rw [convert_of_a8888 m w n e h]
    · rw [convert_of_r565 m w n e h, packR565_toNat]
    · rw [convert_of_a1555 m w n e h, packA1555_toNat]
    · rw [convert_of_a4444 m w n e h, packA4444_toNat]
    · rw [convert_of_i8 m w n e h, BitVec.toNat_setWidth_of_le (by decide)]
  · intro c s x job rest w fifo out hx hrun hjobs hoff hheld hword hnext hlast hout hroom hfifo
    subst hx
    have hr := resultOf_of_off (job := job) (bank := (s.bank (s.chan c).ctx.bank).entries)
      (m := s.map (s.chan c).ctx.map) (w := w) (fifo := fifo) hoff hout
    rw [completesWord_of_inside hnext, wordAfter_of_inside w hnext] at hr
    have hready := (pixelReady_of_word hrun hjobs hword hr.symm).trans (if_pos ?_)
    · rw [exec_pixelStep_of_ready hready, takePixel_of_inside (Nat.ne_of_lt hnext) hlast,
        Channel.withStep]
      by_cases hfull : (s.chan c).path.next % (s.chan c).ctx.dst.perWord + 1 =
          (s.chan c).ctx.dst.perWord
      · simp [hfull]
      · simp [hfull]
    · by_cases hfull : (s.chan c).path.next % (s.chan c).ctx.dst.perWord + 1 =
          (s.chan c).ctx.dst.perWord
      · simpa [hfull] using hroom hfull
      · simpa [hfull] using hfifo
  · intro c s x job rest w fifo k e left before ps held px full out word hx hrun hjobs hword hk he
      hleft hbefore hedge hpx hfull hpack
    subst hx hk he hpx hfull
    refine pixelReady_of_word hrun hjobs hword (r := { path := { inWord := _, .. }, .. })
      (Eq.symm ?_)
    exact resultOf_eq
      (edge_eq_of_cases (hleft.trans rfl) (hbefore.trans (releaseHeld_eq _ _ _).symm) hedge)
      (pack_eq_of_cases hpack)
  · intro c s x job r hx hready hnext hlast
    subst hx
    rw [exec_pixelStep_of_ready hready, takePixel_of_inside hnext hlast]
    rfl

end Sys2Proof.Proofs
end

section
/-! PROOFS. The pixel step that ends a segment or a job: the record, the releases, and the job's
last words (R121, R122, R151, R153). -/

namespace Sys2Proof.Proofs

open Sys2Proof Sys2Proof.Machine Sys2Proof.Safety

/-! ## The job's last pixel -/

/-- The last step of a job releases the pixel held before, if there is one, and the last pixel. -/
theorem releasedNumbers_of_last {x : Context} {job : Job} {held : Option HeldPixel} {k d : Nat}
    (h : HeldAt x job held k d) (hlast : k + 1 = job.count) :
    releasedNumbers x job.width job.count k held = (held.map (·.number)).toList ++ [k] := by
  unfold releasedNumbers
  cases hon : x.edgeEn with
  | true => rw [if_pos rfl, if_pos ((endsRow_iff _ _ _).2 (.inr hlast))]
  | false =>
    cases held with
    | none => rfl
    | some p =>
      obtain ⟨-, -, hon', -⟩ := h
      exact absurd (hon'.symm.trans hon) (by decide)

/-- The last step of a job hands over its last word and, before it, the word that the held pixel
fills. -/
theorem wordsHanded_of_last {x : Channel} {job : Job}
    (h : HeldAt x.ctx job x.path.held x.path.next x.path.done)
    (hlast : x.path.next + 1 = job.count) :
    wordsHanded x job = (x.path.held.any fun p =>
      decide (p.number % x.ctx.dst.perWord + 1 = x.ctx.dst.perWord)).toNat + 1 := by
  have hend : completesWord x.ctx.dst job.count x.path.next = true := decide_eq_true (.inr hlast)
  rw [wordsHanded, releasedNumbers_of_last h hlast]
  cases hheld : x.path.held with
  | none => simp [hend]
  | some p =>
    rw [hheld] at h
    obtain ⟨hnext, hnumber, -, -⟩ := h
    simp [hend, completesWord_of_inside (f := x.ctx.dst) (n := job.count) (k := p.number)
      (by omega)]

/-- Pixels taken in order up to the job's last leave no word in progress, and the last word they
hand over is 0 beyond that pixel's lane (R7, R153). -/
theorem pack_of_last {x : Context} {m : ReductionMap} {job : Job} {ps : List Released} {d : Nat}
    {q : Packing} (h : LanesOk x.dst d q.word)
    (hnumbers : ps.map (fun p => p.number) = List.range' d ps.length) (hne : ps ≠ [])
    (hlast : d + ps.length = job.count) :
    (x.pack m job ps q).word = none ∧ ∃ (first : List Word) (v : Word),
      (x.pack m job ps q).out = first ++ [v] ∧
        v.toNat < 2 ^ (((job.count - 1) % x.dst.perWord + 1) * x.dst.laneBits) := by
  obtain ⟨init, p, rfl⟩ := (List.eq_nil_or_concat ps).resolve_left hne
  rw [List.concat_eq_append] at hnumbers hlast ⊢
  rw [List.length_append, List.length_singleton] at hnumbers hlast
  rw [List.map_append, List.map_singleton, List.range'_concat, Nat.one_mul] at hnumbers
  obtain ⟨hinit, hp⟩ := List.append_inj' hnumbers rfl
  have hat : p.number = d + init.length := List.singleton_inj.1 hp
  have hpos : p.number = job.count - 1 := by omega
  have hlanes := lanesOk_pack (m := m) (job := job) h hinit (by omega)
  rw [← hat] at hlanes
  rw [pack_concat, place_of_full _ (.inr (by omega : p.number + 1 = job.count)), ← hpos]
  exact ⟨rfl, _, _, rfl, placed_lt hlanes.2 (convert_lt x m job.width p)⟩

theorem done_le_next {x : Context} {job : Job} {held : Option HeldPixel} {k d : Nat}
    (h : HeldAt x job held k d) : d ≤ k := by
  cases held with
  | none => exact Nat.le_of_eq h
  | some p => exact Nat.le_of_succ_le (Nat.le_of_eq h.1)

/-- After the job's last pixel the path holds no word, no pixel is held, and every pixel is done. -/
theorem resultOf_of_last {x : Channel} {job : Job}
    (hheld : HeldAt x.ctx job x.path.held x.path.next x.path.done)
    (hlanes : LanesOk x.ctx.dst x.path.done x.path.outWord) (hlast : x.path.next + 1 = job.count)
    (bank : List (Nat × Entry)) (m : ReductionMap) (w : Word) (fifo : List Word) :
    (resultOf x job bank m w fifo).path =
        { next := job.count, inWord := none, held := none, outWord := none, done := job.count } ∧
      ∃ (first : List Word) (v : Word), (resultOf x job bank m w fifo).out = first ++ [v] ∧
        v.toNat < 2 ^ (((job.count - 1) % x.ctx.dst.perWord + 1) * x.ctx.dst.laneBits) := by
  obtain ⟨hnumbers, hheld', hnone⟩ := edge_numbers (keyedEntry x bank w) hheld (Prod.mk.eta.symm)
  have hle := done_le_next hheld
  have hempty : (edgeOf x job bank w).2 = none := hnone ((endsRow_iff _ _ _).2 (.inr hlast))
  have hdone : x.path.done + (edgeOf x job bank w).1.length = job.count := by
    change HeldAt x.ctx job (edgeOf x job bank w).2 _ _ at hheld'
    rw [hempty] at hheld'
    exact Eq.trans hheld' hlast
  have hne : (edgeOf x job bank w).1 ≠ [] := fun hnil => by
    rw [hnil, List.length_nil] at hdone
    omega
  obtain ⟨hword, hout⟩ := pack_of_last (m := m) (q := { word := x.path.outWord, out := [] }) hlanes
    hnumbers hne hdone
  refine ⟨?_, hout⟩
  have hword' : (packOf x job bank m w).word = none := hword
  rw [resultOf, hword', hempty, hdone, wordAfter_of_full w (.inr hlast), hlast]

/-! ## O44 -/

/-- Settles O44: the ends are the branches of the pixel step; what the last pixel leaves follows
from the pixels' order (`edge_numbers`) and the packing of the last of them (`pack_of_last`). -/
theorem pixelStepEndsSegmentsAndJobs : Obligations.PixelStepEndsSegmentsAndJobs := by
  unfold Obligations.PixelStepEndsSegmentsAndJobs
  refine ⟨fun c s x y job r hx hready hy => ⟨fun hnext => ?_, fun hnext hlast => ⟨fun hnotify => ?_,
    fun hquiet => ?_⟩⟩, releaseHolds_eq, fun c s x job r hx hok hready hlast => ?_⟩
  · subst hx hy
    rw [exec_pixelStep_of_ready hready, takePixel_of_jobEnd hnext]
    rfl
  · subst hx hy
    rw [exec_pixelStep_of_ready hready, takePixel_of_segmentEnd hnext hlast, Channel.segmentEnded,
      if_pos hnotify]
    rfl
  · subst hx hy
    rw [exec_pixelStep_of_ready hready, takePixel_of_segmentEnd hnext hlast, Channel.segmentEnded,
      if_neg (by simp [hquiet])]
    rfl
  · subst hx
    obtain ⟨⟨rest, hjobs⟩, hrun, hwork, -⟩ := pixelReady_eq_some_iff.1 hready
    obtain ⟨w, fifo, -, rfl⟩ := pixelWork_eq_some_iff.1 hwork
    obtain ⟨j, rest', hjobs', ⟨-, hheld, -, hlanes⟩, -⟩ :=
      (pathOk_iff _).1 hok (by unfold MidJob; rw [hrun]; trivial)
    obtain ⟨rfl, -⟩ := List.cons.inj (hjobs.symm.trans hjobs')
    obtain ⟨hpath, first, v, hout, hv⟩ := resultOf_of_last hheld hlanes hlast
      (s.bank (s.chan c).ctx.bank).entries (s.map (s.chan c).ctx.map) w fifo
    have hlength := (resultOf_out_length (s.chan c) job (s.bank (s.chan c).ctx.bank).entries
      (s.map (s.chan c).ctx.map) w fifo).trans (wordsHanded_of_last hheld hlast)
    have hsum := congrArg List.length hout
    rw [hlength, List.length_append, List.length_singleton] at hsum
    refine ⟨hpath, ⟨first, v, hout, ?_, hv⟩, ?_⟩
    · have hle := Bool.toNat_le ((s.chan c).path.held.any fun p =>
        decide (p.number % (s.chan c).ctx.dst.perWord + 1 = (s.chan c).ctx.dst.perWord))
      omega
    · rw [hlength, Nat.succ_inj, Bool.toNat_eq_one]
      cases (s.chan c).path.held <;> simp

end Sys2Proof.Proofs
end
